-- ==== Sys2Proof/Word.lean ====
section
/-! DEFINITION. The bit-vector types of the block: rule R3 (widths) and rules R11 to R15 (value types). -/

namespace Sys2Proof

/-- A byte, 8 bits (00_scope.md section 5.1). -/
abbrev Byte := BitVec 8

/-- An opcode: one 16-bit machine word in two bytes (R3, R50). -/
abbrev Word := BitVec 16

/-- A nibble, 4 bits (R3). -/
abbrev Nibble := BitVec 4

/-- `Address`: a 12-bit unsigned operand, every value legal (R12). -/
abbrev Address := BitVec 12

/-- `Const8`: an 8-bit unsigned operand (R13). -/
abbrev Const8 := BitVec 8

/-- `Const4`: a 4-bit unsigned operand (R14). -/
abbrev Const4 := BitVec 4

/-- `Var`: a register index, 4 bits, every value legal (R15). -/
abbrev Var := BitVec 4

/-- The variant number on the `tag` port, 6 bits (R25, R68). -/
abbrev Tag := BitVec 6

end Sys2Proof
end

