-- ==== Sys2Proof/Config.lean ====
section
/-! DEFINITION. What the spec leaves to the implementation (the parameter table of 00_scope.md section 4), and the free values of the model. -/

namespace Sys2Proof.Config

/-- The size every memory region reaches: "at least 4096 bytes" (R30). -/
def minRegionBytes : Nat := 4096

/-- How far this implementation's region reaches beyond 4096 bytes. The spec leaves it open (R30, D14), so it has no
body: nothing can be proved of its value. -/
opaque extraRegionBytes : Nat

/-- `MEM_BYTES`, the size of the memory region, with `MEM_BYTES >= 4096` (R30). -/
def regionBytes : Nat := minRegionBytes + extraRegionBytes

/-- What a byte of the region holds before anything is stored there. The spec states no contents (10_state.md section 5),
so it is a free value: no body (log entry 4). -/
opaque powerOnByte : Nat → Byte

/-- What `off_addr` shows while `off_err = 1`: "no specified value" (R57, U2). A free value, applied to the model's own
draw counter: no body (log entry 5). -/
opaque unspecifiedOffAddr : Nat → Address

/-- The least `OFFSET_BITS` at which the range error can be reached (R3's table, D10). -/
def minOffsetBits : Nat := 13

/-- How much wider than 13 bits this implementation's `off_in` is. The spec leaves it open (R3's table, U3), so it has no
body: nothing can be proved of its value. -/
opaque extraOffsetBits : Nat

/-- `OFFSET_BITS`, the width of the input port `off_in`, with `OFFSET_BITS >= 13` (R3's table, D10; log entry 6). -/
def offsetBits : Nat := extraOffsetBits + minOffsetBits

/-- `OFFSET_BITS` "default 16" (R3's table, D10). No definition and no statement rests on this default. -/
def offsetBitsDefault : Nat := 16

/-- Every `Address` fits on `off_in`, whatever its width. -/
theorem addressBits_le_offsetBits : 12 ≤ offsetBits := by
  simp only [offsetBits, minOffsetBits]; omega

/-- `ROM_BASE` "by convention" (R37). A load takes its base as an argument, so no statement rests on this default. -/
def romBaseDefault : Nat := 0x200

/-- `FAIL_POLICY`: what the consumer does with a decode failure, the caller's choice (R158, D12). -/
inductive FailPolicy where
  | skip
  | logAndSkip
  | halt
  deriving DecidableEq, Repr

end Sys2Proof.Config
end

