-- ==== Sys2Proof/Syntax.lean ====
section
/-! DEFINITION. `Instruction`, the tagged union of rule R16: exactly 35 variants, each carrying the operand types its
encoding carries, in payload order. The nine names of group 0xF are the spec's own (D8). -/

namespace Sys2Proof

/-- One constructor per row of spec/opcode_table.json, in tag order. -/
inductive Instr where
  /-- `Return`, pattern `00EE` (R101). -/
  | ret
  /-- `ClearScreen`, pattern `00E0` (R102). -/
  | clearScreen
  /-- `CallMachineRoutine`, pattern `0aaa` except `00E0`, `00EE` (R103). -/
  | callMachineRoutine (a : Address)
  /-- `Jump`, pattern `1aaa` (R104). -/
  | jump (a : Address)
  /-- `CallSubroutine`, pattern `2aaa` (R105). -/
  | callSubroutine (a : Address)
  /-- `SkipIfEqualConst`, pattern `3xkk` (R106). -/
  | skipIfEqualConst (x : Var) (k : Const8)
  /-- `SkipIfNotEqualConst`, pattern `4xkk` (R107). -/
  | skipIfNotEqualConst (x : Var) (k : Const8)
  /-- `SkipIfEqual`, pattern `5xy0` (R108). -/
  | skipIfEqual (x y : Var)
  /-- `SetConst`, pattern `6xkk` (R109). -/
  | setConst (x : Var) (k : Const8)
  /-- `AddConst`, pattern `7xkk` (R110). -/
  | addConst (x : Var) (k : Const8)
  /-- `Set`, pattern `8xy0` (R112). -/
  | set (x y : Var)
  /-- `Or`, pattern `8xy1` (R113). -/
  | or (x y : Var)
  /-- `And`, pattern `8xy2` (R114). -/
  | and (x y : Var)
  /-- `Xor`, pattern `8xy3` (R115). -/
  | xor (x y : Var)
  /-- `AddReg`, pattern `8xy4` (R116). -/
  | addReg (x y : Var)
  /-- `SubReg`, pattern `8xy5` (R117, key by D7). -/
  | subReg (x y : Var)
  /-- `ShiftRight`, pattern `8xy6` (R118, key by D7). -/
  | shiftRight (x y : Var)
  /-- `SubRegReverse`, pattern `8xy7` (R119, key by D7). -/
  | subRegReverse (x y : Var)
  /-- `ShiftLeft`, pattern `8xyE` (R120). -/
  | shiftLeft (x y : Var)
  /-- `SkipIfNotEqual`, pattern `9xy0` (R121). -/
  | skipIfNotEqual (x y : Var)
  /-- `SetIndex`, pattern `Aaaa` (R122). -/
  | setIndex (a : Address)
  /-- `JumpWithOffset`, pattern `Baaa` (R123). -/
  | jumpWithOffset (a : Address)
  /-- `Random`, pattern `Cxkk` (R124). -/
  | random (x : Var) (k : Const8)
  /-- `Draw`, pattern `Dxyh` (R125). -/
  | draw (x y : Var) (h : Const4)
  /-- `KeyPressed`, pattern `Ex9E` (R127). -/
  | keyPressed (x : Var)
  /-- `KeyNotPressed`, pattern `ExA1` (R128). -/
  | keyNotPressed (x : Var)
  /-- `GetDelayTimer`, pattern `Fx07` (R130). -/
  | getDelayTimer (x : Var)
  /-- `WaitForKey`, pattern `Fx0A` (R131). -/
  | waitForKey (x : Var)
  /-- `SetDelayTimer`, pattern `Fx15` (R132). -/
  | setDelayTimer (x : Var)
  /-- `SetSoundTimer`, pattern `Fx18` (R133). -/
  | setSoundTimer (x : Var)
  /-- `AddToIndex`, pattern `Fx1E` (R134). -/
  | addToIndex (x : Var)
  /-- `SetIndexToSprite`, pattern `Fx29` (R135). -/
  | setIndexToSprite (x : Var)
  /-- `StoreBcd`, pattern `Fx33` (R136). -/
  | storeBcd (x : Var)
  /-- `StoreRegisters`, pattern `Fx55` (R137). -/
  | storeRegisters (x : Var)
  /-- `LoadRegisters`, pattern `Fx65` (R138). -/
  | loadRegisters (x : Var)
  deriving DecidableEq, Repr

end Sys2Proof
end

