-- ==== Sys2Proof/WellFormed.lean ====
section
/-! DEFINITION. Which instruction values a word can stand for. Every operand value of every width is legal (R12 to R15)
but for one case: the addresses 0x0E0 and 0x0EE "can never appear" in `CallMachineRoutine` (R103 corner case (c)). -/

namespace Sys2Proof

/-- The instruction values `decode` can produce (R103(c); every other payload is unrestricted, R12 to R15). -/
def Instr.wellFormed : Instr → Bool
  | .callMachineRoutine a => a != 0x0E0#12 && a != 0x0EE#12
  | .ret | .clearScreen => true
  | .jump _ | .callSubroutine _ | .setIndex _ | .jumpWithOffset _ => true
  | .skipIfEqualConst _ _ | .skipIfNotEqualConst _ _ | .setConst _ _ | .addConst _ _ | .random _ _ => true
  | .skipIfEqual _ _ | .skipIfNotEqual _ _ => true
  | .set _ _ | .or _ _ | .and _ _ | .xor _ _ | .addReg _ _ | .subReg _ _ | .shiftRight _ _
  | .subRegReverse _ _ | .shiftLeft _ _ => true
  | .draw _ _ _ => true
  | .keyPressed _ | .keyNotPressed _ => true
  | .getDelayTimer _ | .waitForKey _ | .setDelayTimer _ | .setSoundTimer _ | .addToIndex _
  | .setIndexToSprite _ | .storeBcd _ | .storeRegisters _ | .loadRegisters _ => true

end Sys2Proof
end

