-- ==== Sys2Proof/Decode.lean ====
section
/-! DEFINITION. The decoder, in the three stages of rule R2 (nibble extraction, opcode dispatch, operand assembly); after
it the encoder; the reference definition R61 and the opcode table R72 stand beside it as data, for the statements that
compare them. -/

namespace Sys2Proof

/-! ## Result types (R11, R16, R17) -/

/-- The nibble quartet, "the dispatch key" (R11). -/
structure Quartet where
  n0 : Nibble
  n1 : Nibble
  n2 : Nibble
  n3 : Nibble
  deriving DecidableEq, Repr

/-- `DecodeFailure`: one case, carrying the raw quartet (R17, R151). -/
inductive DecodeFailure where
  | unrecognized (q : Quartet)
  deriving DecidableEq, Repr

/-- `DecodeResult = Ok(Instruction) | Fail(DecodeFailure)` (R17). -/
inductive DecodeResult where
  | ok (i : Instr)
  | fail (f : DecodeFailure)
  deriving DecidableEq, Repr

/-- `ConstructionRangeError`, the error of the flat constructor, carrying the offending number (R154, D10). -/
structure ConstructionRangeError where
  offset : Nat
  deriving DecidableEq, Repr

/-- The six operand shapes of R52. -/
inductive Format where
  | z | a | xk | xy | xyh | x
  deriving DecidableEq, Repr

/-- The variant tags, the output of `opcode_dispatch_table` (R2(b)): the 35 names of R16 without their payloads. -/
inductive Variant where
  | ret | clearScreen | callMachineRoutine | jump | callSubroutine
  | skipIfEqualConst | skipIfNotEqualConst | skipIfEqual | setConst | addConst
  | set | or | and | xor | addReg | subReg | shiftRight | subRegReverse | shiftLeft
  | skipIfNotEqual | setIndex | jumpWithOffset | random | draw
  | keyPressed | keyNotPressed
  | getDelayTimer | waitForKey | setDelayTimer | setSoundTimer | addToIndex
  | setIndexToSprite | storeBcd | storeRegisters | loadRegisters
  deriving DecidableEq, Repr

/-- An operand value with its type (R12 to R16). -/
inductive Operand where
  | address (a : Address)
  | var (r : Var)
  | const8 (k : Const8)
  | const4 (h : Const4)
  deriving DecidableEq, Repr

/-! ## Sub-block `nibble_extractor` (R51) -/

/-- `n0 = b0[7:4]`, `n1 = b0[3:0]`, `n2 = b1[7:4]`, `n3 = b1[3:0]` (R51). -/
def extractNibbles (b0 b1 : Byte) : Quartet :=
  { n0 := b0.extractLsb' 4 4, n1 := b0.extractLsb' 0 4, n2 := b1.extractLsb' 4 4, n3 := b1.extractLsb' 0 4 }

/-- `n0 ++ n1 ++ n2 ++ n3` (R51, R26). -/
def Quartet.toWord (q : Quartet) : Word := q.n0 ++ q.n1 ++ q.n2 ++ q.n3

/-- The big-endian word of two bytes: the first is the more significant (R32). -/
def wordOfBytes (b0 b1 : Byte) : Word := b0 ++ b1

/-- The first byte of a word, the one at the lower offset (R32, R24). -/
def firstByte (w : Word) : Byte := w.extractLsb' 8 8

/-- The second byte of a word (R32, R24). -/
def secondByte (w : Word) : Byte := w.extractLsb' 0 8

/-! ## Sub-block `operand_assembler` (R53 to R57) -/

/-- `Address::from_nibbles`: `(n1 << 8) | (n2 << 4) | n3` (R53). -/
def addressFromNibbles (n1 n2 n3 : Nibble) : Address :=
  (n1.setWidth 12 <<< 8) ||| (n2.setWidth 12 <<< 4) ||| n3.setWidth 12

/-- `Const8::from_nibbles`: `(n2 << 4) | n3` (R54; 90_conflicts.md C2). -/
def const8FromNibbles (n2 n3 : Nibble) : Const8 :=
  (n2.setWidth 8 <<< 4) ||| n3.setWidth 8

/-- `Const4::from_nibble`: the nibble unchanged (R55). -/
def const4FromNibble (n3 : Nibble) : Const4 := n3

/-- `Var::from_nibble`: the nibble unchanged (R56). -/
def varFromNibble (n : Nibble) : Var := n

/-- `Address::from_offset`: the value itself up to 4095, the range error above (R57). -/
def addressFromOffset (n : Nat) : Except ConstructionRangeError Address :=
  if n > 4095 then .error { offset := n } else .ok (BitVec.ofNat 12 n)

/-- The operands of the chosen variant, built from the nibbles it names (R2(c), R52). -/
def assembleOperands (v : Variant) (q : Quartet) : Instr :=
  let a := addressFromNibbles q.n1 q.n2 q.n3
  let k := const8FromNibbles q.n2 q.n3
  let x := varFromNibble q.n1
  let y := varFromNibble q.n2
  let h := const4FromNibble q.n3
  match v with
  | .ret => .ret
  | .clearScreen => .clearScreen
  | .callMachineRoutine => .callMachineRoutine a
  | .jump => .jump a
  | .callSubroutine => .callSubroutine a
  | .skipIfEqualConst => .skipIfEqualConst x k
  | .skipIfNotEqualConst => .skipIfNotEqualConst x k
  | .skipIfEqual => .skipIfEqual x y
  | .setConst => .setConst x k
  | .addConst => .addConst x k
  | .set => .set x y
  | .or => .or x y
  | .and => .and x y
  | .xor => .xor x y
  | .addReg => .addReg x y
  | .subReg => .subReg x y
  | .shiftRight => .shiftRight x y
  | .subRegReverse => .subRegReverse x y
  | .shiftLeft => .shiftLeft x y
  | .skipIfNotEqual => .skipIfNotEqual x y
  | .setIndex => .setIndex a
  | .jumpWithOffset => .jumpWithOffset a
  | .random => .random x k
  | .draw => .draw x y h
  | .keyPressed => .keyPressed x
  | .keyNotPressed => .keyNotPressed x
  | .getDelayTimer => .getDelayTimer x
  | .waitForKey => .waitForKey x
  | .setDelayTimer => .setDelayTimer x
  | .setSoundTimer => .setSoundTimer x
  | .addToIndex => .addToIndex x
  | .setIndexToSprite => .setIndexToSprite x
  | .storeBcd => .storeBcd x
  | .storeRegisters => .storeRegisters x
  | .loadRegisters => .loadRegisters x

/-! ## Sub-block `opcode_dispatch_table` (R58 to R62) -/

/-- Group 0x0: the two fixed patterns before the address-carrying fallback (R59, R100). -/
def dispatchGroup0 (n1 n2 n3 : Nibble) : Variant :=
  if n1 = 0x0#4 ∧ n2 = 0xE#4 ∧ n3 = 0xE#4 then .ret
  else if n1 = 0x0#4 ∧ n2 = 0xE#4 ∧ n3 = 0x0#4 then .clearScreen
  else .callMachineRoutine

/-- Group 0x8, keyed on `n3` alone; the keys of `SubReg`, `ShiftRight`, `SubRegReverse` by D7 (R111). -/
def dispatchGroup8 (n3 : Nibble) : Option Variant :=
  match n3 with
  | 0x0#4 => some .set
  | 0x1#4 => some .or
  | 0x2#4 => some .and
  | 0x3#4 => some .xor
  | 0x4#4 => some .addReg
  | 0x5#4 => some .subReg
  | 0x6#4 => some .shiftRight
  | 0x7#4 => some .subRegReverse
  | 0xE#4 => some .shiftLeft
  | _ => none

/-- The 8-bit tail `n2n3` (R126, R129). -/
def tailByte (n2 n3 : Nibble) : Byte := n2 ++ n3

/-- Group 0xE, keyed on the tail `n2n3`; the pairing of keys and names by D9 (R126). -/
def dispatchGroupE (tail : Byte) : Option Variant :=
  match tail with
  | 0x9E#8 => some .keyPressed
  | 0xA1#8 => some .keyNotPressed
  | _ => none

/-- Group 0xF, keyed on the tail `n2n3`; the names by D8 (R129). -/
def dispatchGroupF (tail : Byte) : Option Variant :=
  match tail with
  | 0x07#8 => some .getDelayTimer
  | 0x0A#8 => some .waitForKey
  | 0x15#8 => some .setDelayTimer
  | 0x18#8 => some .setSoundTimer
  | 0x1E#8 => some .addToIndex
  | 0x29#8 => some .setIndexToSprite
  | 0x33#8 => some .storeBcd
  | 0x55#8 => some .storeRegisters
  | 0x65#8 => some .loadRegisters
  | _ => none

/-- A pattern accepted only when `n3 = 0` (groups 0x5 and 0x9: R58, 90_conflicts.md C6). -/
def dispatchIfZero (n3 : Nibble) (v : Variant) : Option Variant :=
  if n3 = 0x0#4 then some v else none

/-- "Dispatch primarily on `n0`", then on the trailing nibbles (R58, R62); no default variant (R153). -/
def dispatchVariant (q : Quartet) : Option Variant :=
  match q.n0 with
  | 0x0#4 => some (dispatchGroup0 q.n1 q.n2 q.n3)
  | 0x1#4 => some .jump
  | 0x2#4 => some .callSubroutine
  | 0x3#4 => some .skipIfEqualConst
  | 0x4#4 => some .skipIfNotEqualConst
  | 0x5#4 => dispatchIfZero q.n3 .skipIfEqual
  | 0x6#4 => some .setConst
  | 0x7#4 => some .addConst
  | 0x8#4 => dispatchGroup8 q.n3
  | 0x9#4 => dispatchIfZero q.n3 .skipIfNotEqual
  | 0xA#4 => some .setIndex
  | 0xB#4 => some .jumpWithOffset
  | 0xC#4 => some .random
  | 0xD#4 => some .draw
  | 0xE#4 => dispatchGroupE (tailByte q.n2 q.n3)
  | 0xF#4 => dispatchGroupF (tailByte q.n2 q.n3)
  | _ => none

/-! ## `decode` (R1, R17) -/

/-- The result for a quartet: the variant's instruction, or the failure carrying the quartet (R60, R151). -/
def decodeQuartet (q : Quartet) : DecodeResult :=
  match dispatchVariant q with
  | some v => .ok (assembleOperands v q)
  | none => .fail (.unrecognized q)

/-- `decode`, the block's one function (R1): total on any two bytes. -/
def decode (b0 b1 : Byte) : DecodeResult := decodeQuartet (extractNibbles b0 b1)

/-- `decode` of the value on `op_in`: `op_in[15:8] = b0`, `op_in[7:0] = b1` (R24). -/
def decodeWord (w : Word) : DecodeResult := decode (firstByte w) (secondByte w)

/-- `decode` given a byte sequence: no result at all unless it is exactly two bytes (R34, D11). -/
def decodeBytes : List Byte → Option DecodeResult
  | [b0, b1] => some (decode b0 b1)
  | _ => none

/-- The instruction the decoder reads from a table word: the word's low `nbits` bits, the bits above them 0, laid out
big-endian (R32); none where the decoder answers the failure. -/
def decodeTableWord (nbits w : Nat) : Option Instr :=
  match decodeWord (BitVec.ofNat 16 (w % 2 ^ nbits)) with
  | .ok i => some i
  | .fail _ => none

/-! ## The encoder: the words of the format table (R52), pattern by pattern (R16) -/

/-- The 16-bit word of an instruction, from its pattern (R16, R52): the fixed digits and the operand fields. -/
def encode : Instr → Word
  | .ret => 0x00EE#16
  | .clearScreen => 0x00E0#16
  | .callMachineRoutine a => 0x0#4 ++ a
  | .jump a => 0x1#4 ++ a
  | .callSubroutine a => 0x2#4 ++ a
  | .skipIfEqualConst x k => 0x3#4 ++ x ++ k
  | .skipIfNotEqualConst x k => 0x4#4 ++ x ++ k
  | .skipIfEqual x y => 0x5#4 ++ x ++ y ++ 0x0#4
  | .setConst x k => 0x6#4 ++ x ++ k
  | .addConst x k => 0x7#4 ++ x ++ k
  | .set x y => 0x8#4 ++ x ++ y ++ 0x0#4
  | .or x y => 0x8#4 ++ x ++ y ++ 0x1#4
  | .and x y => 0x8#4 ++ x ++ y ++ 0x2#4
  | .xor x y => 0x8#4 ++ x ++ y ++ 0x3#4
  | .addReg x y => 0x8#4 ++ x ++ y ++ 0x4#4
  | .subReg x y => 0x8#4 ++ x ++ y ++ 0x5#4
  | .shiftRight x y => 0x8#4 ++ x ++ y ++ 0x6#4
  | .subRegReverse x y => 0x8#4 ++ x ++ y ++ 0x7#4
  | .shiftLeft x y => 0x8#4 ++ x ++ y ++ 0xE#4
  | .skipIfNotEqual x y => 0x9#4 ++ x ++ y ++ 0x0#4
  | .setIndex a => 0xA#4 ++ a
  | .jumpWithOffset a => 0xB#4 ++ a
  | .random x k => 0xC#4 ++ x ++ k
  | .draw x y h => 0xD#4 ++ x ++ y ++ h
  | .keyPressed x => 0xE#4 ++ x ++ 0x9E#8
  | .keyNotPressed x => 0xE#4 ++ x ++ 0xA1#8
  | .getDelayTimer x => 0xF#4 ++ x ++ 0x07#8
  | .waitForKey x => 0xF#4 ++ x ++ 0x0A#8
  | .setDelayTimer x => 0xF#4 ++ x ++ 0x15#8
  | .setSoundTimer x => 0xF#4 ++ x ++ 0x18#8
  | .addToIndex x => 0xF#4 ++ x ++ 0x1E#8
  | .setIndexToSprite x => 0xF#4 ++ x ++ 0x29#8
  | .storeBcd x => 0xF#4 ++ x ++ 0x33#8
  | .storeRegisters x => 0xF#4 ++ x ++ 0x55#8
  | .loadRegisters x => 0xF#4 ++ x ++ 0x65#8

/-- The two bytes of an instruction in memory order: most significant first (R32). -/
def encodeBytes (i : Instr) : List Byte := [firstByte (encode i), secondByte (encode i)]

/-! ## Variant, format and tag of an instruction (R16, R52, R68) -/

/-- The variant of an instruction value: its name without its payload (R16). -/
def Instr.variant : Instr → Variant
  | .ret => .ret
  | .clearScreen => .clearScreen
  | .callMachineRoutine _ => .callMachineRoutine
  | .jump _ => .jump
  | .callSubroutine _ => .callSubroutine
  | .skipIfEqualConst _ _ => .skipIfEqualConst
  | .skipIfNotEqualConst _ _ => .skipIfNotEqualConst
  | .skipIfEqual _ _ => .skipIfEqual
  | .setConst _ _ => .setConst
  | .addConst _ _ => .addConst
  | .set _ _ => .set
  | .or _ _ => .or
  | .and _ _ => .and
  | .xor _ _ => .xor
  | .addReg _ _ => .addReg
  | .subReg _ _ => .subReg
  | .shiftRight _ _ => .shiftRight
  | .subRegReverse _ _ => .subRegReverse
  | .shiftLeft _ _ => .shiftLeft
  | .skipIfNotEqual _ _ => .skipIfNotEqual
  | .setIndex _ => .setIndex
  | .jumpWithOffset _ => .jumpWithOffset
  | .random _ _ => .random
  | .draw _ _ _ => .draw
  | .keyPressed _ => .keyPressed
  | .keyNotPressed _ => .keyNotPressed
  | .getDelayTimer _ => .getDelayTimer
  | .waitForKey _ => .waitForKey
  | .setDelayTimer _ => .setDelayTimer
  | .setSoundTimer _ => .setSoundTimer
  | .addToIndex _ => .addToIndex
  | .setIndexToSprite _ => .setIndexToSprite
  | .storeBcd _ => .storeBcd
  | .storeRegisters _ => .storeRegisters
  | .loadRegisters _ => .loadRegisters

/-- The payload of an instruction value, in payload order (R16, R66). -/
def Instr.payload : Instr → List Operand
  | .ret | .clearScreen => []
  | .callMachineRoutine a | .jump a | .callSubroutine a | .setIndex a | .jumpWithOffset a => [.address a]
  | .skipIfEqualConst x k | .skipIfNotEqualConst x k | .setConst x k | .addConst x k | .random x k =>
    [.var x, .const8 k]
  | .skipIfEqual x y | .set x y | .or x y | .and x y | .xor x y | .addReg x y | .subReg x y | .shiftRight x y
  | .subRegReverse x y | .shiftLeft x y | .skipIfNotEqual x y => [.var x, .var y]
  | .draw x y h => [.var x, .var y, .const4 h]
  | .keyPressed x | .keyNotPressed x | .getDelayTimer x | .waitForKey x | .setDelayTimer x | .setSoundTimer x
  | .addToIndex x | .setIndexToSprite x | .storeBcd x | .storeRegisters x | .loadRegisters x => [.var x]

/-- The register index an operand names, if it is a `Var` (R15). -/
def Operand.var? : Operand → Option Var
  | .var r => some r
  | .address _ | .const8 _ | .const4 _ => none

/-- The format of a variant (R52; the Format column of R16). -/
def Variant.format : Variant → Format
  | .ret | .clearScreen => .z
  | .callMachineRoutine | .jump | .callSubroutine | .setIndex | .jumpWithOffset => .a
  | .skipIfEqualConst | .skipIfNotEqualConst | .setConst | .addConst | .random => .xk
  | .skipIfEqual | .set | .or | .and | .xor | .addReg | .subReg | .shiftRight | .subRegReverse
  | .shiftLeft | .skipIfNotEqual => .xy
  | .draw => .xyh
  | .keyPressed | .keyNotPressed | .getDelayTimer | .waitForKey | .setDelayTimer | .setSoundTimer
  | .addToIndex | .setIndexToSprite | .storeBcd | .storeRegisters | .loadRegisters => .x

/-- The 35 variants in tag order (R16, R68). -/
def allVariants : List Variant :=
  [.ret, .clearScreen, .callMachineRoutine, .jump, .callSubroutine, .skipIfEqualConst, .skipIfNotEqualConst,
   .skipIfEqual, .setConst, .addConst,
   .set, .or, .and, .xor, .addReg, .subReg, .shiftRight, .subRegReverse, .shiftLeft, .skipIfNotEqual, .setIndex,
   .jumpWithOffset, .random, .draw,
   .keyPressed, .keyNotPressed, .getDelayTimer, .waitForKey, .setDelayTimer, .setSoundTimer, .addToIndex,
   .setIndexToSprite, .storeBcd, .storeRegisters, .loadRegisters]

/-- The tag number of a variant (R68, D4). -/
def Variant.tag : Variant → Tag
  | .ret => 0 | .clearScreen => 1 | .callMachineRoutine => 2 | .jump => 3 | .callSubroutine => 4
  | .skipIfEqualConst => 5 | .skipIfNotEqualConst => 6 | .skipIfEqual => 7 | .setConst => 8 | .addConst => 9
  | .set => 10 | .or => 11 | .and => 12 | .xor => 13 | .addReg => 14 | .subReg => 15 | .shiftRight => 16
  | .subRegReverse => 17 | .shiftLeft => 18 | .skipIfNotEqual => 19 | .setIndex => 20 | .jumpWithOffset => 21
  | .random => 22 | .draw => 23 | .keyPressed => 24 | .keyNotPressed => 25 | .getDelayTimer => 26
  | .waitForKey => 27 | .setDelayTimer => 28 | .setSoundTimer => 29 | .addToIndex => 30
  | .setIndexToSprite => 31 | .storeBcd => 32 | .storeRegisters => 33 | .loadRegisters => 34

/-- The variant a tag names; none for 35 to 63 (R68). -/
def variantOfTag (t : Tag) : Option Variant := allVariants[t.toNat]?

/-! ## The reference definition of R61, arm by arm -/

/-- One arm of R61: the nibbles it tests (none where the arm does not test that nibble) and the variant it answers. -/
structure ReferenceArm where
  n0 : Nibble
  n1 : Option Nibble
  n2 : Option Nibble
  n3 : Option Nibble
  result : Variant
  deriving DecidableEq, Repr

/-- Whether an arm's condition holds of a quartet: every nibble it tests is equal (R61). -/
def ReferenceArm.holds (r : ReferenceArm) (q : Quartet) : Bool :=
  r.n0 == q.n0 && r.n1.all (· == q.n1) && r.n2.all (· == q.n2) && r.n3.all (· == q.n3)

/-- The arms of R61 for the groups 0x0 to 0x7. -/
def referenceArmsLow : List ReferenceArm :=
  [⟨0x0, some 0x0, some 0xE, some 0xE, .ret⟩,
   ⟨0x0, some 0x0, some 0xE, some 0x0, .clearScreen⟩,
   ⟨0x0, none, none, none, .callMachineRoutine⟩,
   ⟨0x1, none, none, none, .jump⟩,
   ⟨0x2, none, none, none, .callSubroutine⟩,
   ⟨0x3, none, none, none, .skipIfEqualConst⟩,
   ⟨0x4, none, none, none, .skipIfNotEqualConst⟩,
   ⟨0x5, none, none, some 0x0, .skipIfEqual⟩,
   ⟨0x6, none, none, none, .setConst⟩,
   ⟨0x7, none, none, none, .addConst⟩]

/-- The arms of R61 for the groups 0x8 to 0xD. -/
def referenceArmsMid : List ReferenceArm :=
  [⟨0x8, none, none, some 0x0, .set⟩,
   ⟨0x8, none, none, some 0x1, .or⟩,
   ⟨0x8, none, none, some 0x2, .and⟩,
   ⟨0x8, none, none, some 0x3, .xor⟩,
   ⟨0x8, none, none, some 0x4, .addReg⟩,
   ⟨0x8, none, none, some 0x5, .subReg⟩,
   ⟨0x8, none, none, some 0x6, .shiftRight⟩,
   ⟨0x8, none, none, some 0x7, .subRegReverse⟩,
   ⟨0x8, none, none, some 0xE, .shiftLeft⟩,
   ⟨0x9, none, none, some 0x0, .skipIfNotEqual⟩,
   ⟨0xA, none, none, none, .setIndex⟩,
   ⟨0xB, none, none, none, .jumpWithOffset⟩,
   ⟨0xC, none, none, none, .random⟩,
   ⟨0xD, none, none, none, .draw⟩]

/-- The arms of R61 for the groups 0xE and 0xF. -/
def referenceArmsHigh : List ReferenceArm :=
  [⟨0xE, none, some 0x9, some 0xE, .keyPressed⟩,
   ⟨0xE, none, some 0xA, some 0x1, .keyNotPressed⟩,
   ⟨0xF, none, some 0x0, some 0x7, .getDelayTimer⟩,
   ⟨0xF, none, some 0x0, some 0xA, .waitForKey⟩,
   ⟨0xF, none, some 0x1, some 0x5, .setDelayTimer⟩,
   ⟨0xF, none, some 0x1, some 0x8, .setSoundTimer⟩,
   ⟨0xF, none, some 0x1, some 0xE, .addToIndex⟩,
   ⟨0xF, none, some 0x2, some 0x9, .setIndexToSprite⟩,
   ⟨0xF, none, some 0x3, some 0x3, .storeBcd⟩,
   ⟨0xF, none, some 0x5, some 0x5, .storeRegisters⟩,
   ⟨0xF, none, some 0x6, some 0x5, .loadRegisters⟩]

/-- The arms of R61 in the order the rule prints them. -/
def referenceArms : List ReferenceArm := referenceArmsLow ++ referenceArmsMid ++ referenceArmsHigh

/-- R61: "the arms are tried top to bottom and the first that matches gives the result", else the failure. -/
def decodeReference (b0 b1 : Byte) : DecodeResult :=
  match referenceArms.find? (·.holds (extractNibbles b0 b1)) with
  | some arm => .ok (assembleOperands arm.result (extractNibbles b0 b1))
  | none => .fail (.unrecognized (extractNibbles b0 b1))

/-! ## The opcode table of R72 -/

/-- One row of opcode_table.json: a word matches when `(w & mask) = match` and it is not excluded (R72). -/
structure OpcodeRow where
  variant : Variant
  pattern : Word
  mask : Word
  exclude : List Word
  deriving DecidableEq, Repr

/-- Whether a row accepts a word (R72). -/
def OpcodeRow.accepts (r : OpcodeRow) (w : Word) : Bool :=
  w &&& r.mask == r.pattern && !r.exclude.contains w

/-- The rows of tags 0 to 9 (R72). -/
def opcodeTableLow : List OpcodeRow :=
  [⟨.ret, 0x00EE, 0xFFFF, []⟩,
   ⟨.clearScreen, 0x00E0, 0xFFFF, []⟩,
   ⟨.callMachineRoutine, 0x0000, 0xF000, [0x00E0, 0x00EE]⟩,
   ⟨.jump, 0x1000, 0xF000, []⟩,
   ⟨.callSubroutine, 0x2000, 0xF000, []⟩,
   ⟨.skipIfEqualConst, 0x3000, 0xF000, []⟩,
   ⟨.skipIfNotEqualConst, 0x4000, 0xF000, []⟩,
   ⟨.skipIfEqual, 0x5000, 0xF00F, []⟩,
   ⟨.setConst, 0x6000, 0xF000, []⟩,
   ⟨.addConst, 0x7000, 0xF000, []⟩]

/-- The rows of tags 10 to 23 (R72). -/
def opcodeTableMid : List OpcodeRow :=
  [⟨.set, 0x8000, 0xF00F, []⟩,
   ⟨.or, 0x8001, 0xF00F, []⟩,
   ⟨.and, 0x8002, 0xF00F, []⟩,
   ⟨.xor, 0x8003, 0xF00F, []⟩,
   ⟨.addReg, 0x8004, 0xF00F, []⟩,
   ⟨.subReg, 0x8005, 0xF00F, []⟩,
   ⟨.shiftRight, 0x8006, 0xF00F, []⟩,
   ⟨.subRegReverse, 0x8007, 0xF00F, []⟩,
   ⟨.shiftLeft, 0x800E, 0xF00F, []⟩,
   ⟨.skipIfNotEqual, 0x9000, 0xF00F, []⟩,
   ⟨.setIndex, 0xA000, 0xF000, []⟩,
   ⟨.jumpWithOffset, 0xB000, 0xF000, []⟩,
   ⟨.random, 0xC000, 0xF000, []⟩,
   ⟨.draw, 0xD000, 0xF000, []⟩]

/-- The rows of tags 24 to 34 (R72). -/
def opcodeTableHigh : List OpcodeRow :=
  [⟨.keyPressed, 0xE09E, 0xF0FF, []⟩,
   ⟨.keyNotPressed, 0xE0A1, 0xF0FF, []⟩,
   ⟨.getDelayTimer, 0xF007, 0xF0FF, []⟩,
   ⟨.waitForKey, 0xF00A, 0xF0FF, []⟩,
   ⟨.setDelayTimer, 0xF015, 0xF0FF, []⟩,
   ⟨.setSoundTimer, 0xF018, 0xF0FF, []⟩,
   ⟨.addToIndex, 0xF01E, 0xF0FF, []⟩,
   ⟨.setIndexToSprite, 0xF029, 0xF0FF, []⟩,
   ⟨.storeBcd, 0xF033, 0xF0FF, []⟩,
   ⟨.storeRegisters, 0xF055, 0xF0FF, []⟩,
   ⟨.loadRegisters, 0xF065, 0xF0FF, []⟩]

/-- The 35 rows, in tag order (R72). -/
def opcodeTable : List OpcodeRow := opcodeTableLow ++ opcodeTableMid ++ opcodeTableHigh

/-- The variants whose rows accept a word, in row order (R72). -/
def acceptingVariants (w : Word) : List Variant :=
  (opcodeTable.filter (·.accepts w)).map (·.variant)

end Sys2Proof
end

