-- ==== Sys2Proof/Machine/State.lean ====
section
/-! DEFINITION. The state: the values on the block's ports (R24 to R27), the memory region its windows are cut from
(R30) and what the surroundings do next. The block itself holds no state (R10); log entry 1 says how a step shows it. -/

namespace Sys2Proof.Machine

/-- The byte-addressable memory region (R30): the bytes stored so far, by offset, offsets strictly rising. -/
abbrev Memory := List Host.Cell

/-- The result ports of the decode path (R25, R26). -/
structure Outputs where
  /-- `quartet[15:0]`, the output of `nibble_extractor` (R26). -/
  quartet : Word
  /-- `ok`: the result is an instruction (R25). -/
  ok : Bool
  /-- `tag[5:0]`: the variant number, 63 on failure (R25, R68). -/
  tag : Tag
  /-- `vx[3:0]`: the first `Var`, else 0 (R25). -/
  vx : Var
  /-- `vy[3:0]`: the second `Var`, else 0 (R25). -/
  vy : Var
  /-- `addr[11:0]`: the `Address`, else 0 (R25). -/
  addr : Address
  /-- `k8[7:0]`: the `Const8`, else 0 (R25). -/
  k8 : Const8
  /-- `k4[3:0]`: the `Const4`, else 0 (R25). -/
  k4 : Const4
  deriving DecidableEq, Repr

/-- One thing the block's surroundings do (20_memory.md, 70_reset_and_hazards.md section 3; log entry 2). -/
inductive Input where
  /-- The caller presents a byte sequence as one opcode, first byte first (R24, R34, R174). -/
  | present (bytes : List Byte)
  /-- The caller cuts the 2-byte window at an offset of the region and presents it (R31, R175). -/
  | window (offset : Nat)
  /-- The caller applies `Address::from_offset` to a number and needs its result (R57). -/
  | callOffset (n : Nat)
  /-- The caller drives the optional port `off_in` (R27). -/
  | driveOffset (n : BitVec Config.offsetBits)
  /-- The execution stage, the one writer of the region, stores a byte (R39, R41). -/
  | store (offset : Nat) (byte : Byte)
  /-- The loader places program bytes from a base offset upward (R37, R172). -/
  | loadRom (base : Nat) (bytes : List Byte)
  deriving DecidableEq, Repr

/-- The machine. -/
structure State where
  /-- `op_in[15:0]`, the value the caller holds on the data input (R24). -/
  opIn : Word
  /-- The result ports (R25, R26). -/
  out : Outputs
  /-- `off_in`, the value on the optional offset input (R27). -/
  offIn : BitVec Config.offsetBits
  /-- `off_err` (R27). -/
  offErr : Bool
  /-- `off_addr[11:0]` (R27). -/
  offAddr : Address
  /-- The memory region, owned by the execution stage, outside the block (R30, R39). -/
  mem : Memory
  /-- What the surroundings do next, oldest first (the model's own field, log entry 2). -/
  inputs : List Input
  /-- How many free values have been drawn (the model's own field, log entry 5). -/
  draws : Nat
  deriving DecidableEq, Repr

/-- Why the machine stops with a fault. -/
inductive Fault where
  /-- `ConstructionRangeError(n)`, cause `OutOfRange`: `Address::from_offset(n)` with `n > 4095` (R57, R154). Raised by
  the step that takes a `callOffset` input, never by an instruction. Safe: the spec says to treat it so. -/
  | constructionRangeError (n : Nat)
  deriving DecidableEq, Repr

/-- Why the machine's boundary refuses. -/
inductive Refusal where
  /-- An instruction without a meaning. No arm of `exec` raises it. Safe. -/
  | notModelled (mnemonic : String)
  /-- A byte sequence of another length than two, "a caller error, not a decode failure" (R34, D11). Raised by the step
  that takes a `present` input. Safe. -/
  | inputNotTwoBytes (length : Nat)
  /-- A window, store or load that leaves the memory region: bounds are the memory collaborator's, whose answer the spec
  does not give (R33, D13, U6). Raised by the step that takes the input, never by the block. Safe. -/
  | outsideRegion (offset : Nat)
  deriving DecidableEq, Repr

/-- The outcome of a step, a meaning or an input. -/
abbrev Result := Host.Outcome State Fault Refusal

/-- The machine at power-on (R23, R170): no stored value, so both input ports are at 0 (log entry 3), the result ports
are the function of `op_in = 0x0000`, which is `CallMachineRoutine(Address(0x000))` (R103), the offset ports the
function of `off_in = 0`, memory lists nothing, and nothing is presented yet. -/
def State.reset : State :=
  { opIn := 0x0000#16
    out := { quartet := 0x0000#16, ok := true, tag := 2, vx := 0, vy := 0, addr := 0x000#12, k8 := 0, k4 := 0 }
    offIn := BitVec.zero Config.offsetBits
    offErr := false
    offAddr := 0x000#12
    mem := []
    inputs := []
    draws := 0 }

end Sys2Proof.Machine
end

