-- ==== Sys2Proof/Machine/Ops.lean ====
section
/-! DEFINITION. The shared operations: one byte of the memory region read and written, and the decode failure reported.
The block has no trap entry and no trap return (R158, R159): reporting a failure is all it does on an abnormal word. -/

namespace Sys2Proof.Machine

/-! ## The memory region (R30) -/

/-- The canonical form: offsets strictly rising. An unlisted offset holds no stored byte, so no entry can repeat it. -/
def Memory.wf : Memory → Bool
  | [] => true
  | [_] => true
  | c :: d :: m => decide (c.1 < d.1) && Memory.wf (d :: m)

/-- The byte stored at an offset; none where nothing was ever stored. -/
def Memory.stored? : Memory → Nat → Option Byte
  | [], _ => none
  | (c, v) :: m, a => if a = c then some v else Memory.stored? m a

/-- Store one byte, keeping the canonical form. -/
def Memory.put : Memory → Nat → Byte → Memory
  | [], a, b => [(a, b)]
  | (c, v) :: m, a, b =>
    if a < c then (a, b) :: (c, v) :: m
    else if a = c then (a, b) :: m
    else (c, v) :: Memory.put m a b

/-- Store a sequence of bytes at rising offsets from a base: the loader's placement (R37). -/
def Memory.putAll : Memory → Nat → List Byte → Memory
  | m, _, [] => m
  | m, a, b :: bs => Memory.putAll (Memory.put m a b) (a + 1) bs

/-- Whether an offset lies in the region: in its guaranteed 4096 bytes, or in what this implementation has beyond them
(R30). -/
def inRegion (a : Nat) : Bool :=
  decide (a < Config.minRegionBytes) || decide (a < Config.regionBytes)

/-- The model's read of one byte: what was stored, else the unknown power-on contents (log entry 4). -/
def State.byteAt (s : State) (a : Nat) : Byte :=
  (Memory.stored? s.mem a).getD (Config.powerOnByte a)

/-- `MemRead(a, 2)` with the byte at the lower offset the more significant (R31, R32). -/
def State.windowAt (s : State) (a : Nat) : Word :=
  wordOfBytes (s.byteAt a) (s.byteAt (a + 1))

/-- The execution stage stores one byte (R39). -/
def State.storeByte (s : State) (a : Nat) (b : Byte) : State :=
  { s with mem := Memory.put s.mem a b }

/-- The loader places bytes from a base upward (R37, R172). -/
def State.loadBytes (s : State) (base : Nat) (bytes : List Byte) : State :=
  { s with mem := Memory.putAll s.mem base bytes }

/-! ## The inputs and the ports -/

/-- What the surroundings still have to do (log entry 2). -/
def State.setInputs (s : State) (rest : List Input) : State := { s with inputs := rest }

/-- The caller holds a word on `op_in` (R24). -/
def State.presentWord (s : State) (w : Word) : State := { s with opIn := w }

/-- A number up to 4095 as a value of `off_in`: zeros on the left, whatever the width (R27). -/
def offsetOfAddress (a : Address) : BitVec Config.offsetBits := a.setWidth' Config.addressBits_le_offsetBits

/-- The caller holds a number on `off_in` (R27). -/
def State.driveOffIn (s : State) (n : BitVec Config.offsetBits) : State := { s with offIn := n }

/-- `nibble_extractor` drives the `quartet` port, on success and on failure alike (R26, R51). -/
def State.driveQuartet (s : State) : State :=
  { s with out := { s.out with quartet := (extractNibbles (firstByte s.opIn) (secondByte s.opIn)).toWord } }

/-- The result ports of an instruction value: `ok = 1`, its tag, and the operand outputs (R25, R68). The `quartet` port
is `nibble_extractor`'s and stays. -/
def State.driveResult (s : State) (tag : Tag) (vx vy : Var) (addr : Address) (k8 : Const8) (k4 : Const4) : State :=
  { s with
    out := { quartet := s.out.quartet, ok := true, tag := tag, vx := vx, vy := vy, addr := addr, k8 := k8, k4 := k4 } }

/-- Report a decode failure (R151, R158): `ok = 0`, `tag = 63`, every operand output zero, the quartet on its port.
Nothing is saved, no mode changes, control goes nowhere. -/
def State.reportFailure (s : State) (f : DecodeFailure) : State :=
  match f with
  | .unrecognized q =>
    { s with
      out := { quartet := q.toWord, ok := false, tag := 63, vx := 0, vy := 0, addr := 0, k8 := 0, k4 := 0 } }

end Sys2Proof.Machine
end

