-- ==== Sys2Proof/Machine/Caller.lean ====
section
/-! DEFINITION. What the surroundings do between decodes: the caller presents windows and numbers, the execution stage
stores, the loader loads (20_memory.md, R172 to R175). None of it is the block's: it only changes the input ports and
the region. -/

namespace Sys2Proof.Machine

/-- The first offset of a run of `count` offsets that lies outside the region, if any (R30). -/
def firstOutside? : Nat → Nat → Option Nat
  | _, 0 => none
  | a, n + 1 => if inRegion a then firstOutside? (a + 1) n else some a

/-- A byte sequence presented as one opcode: exactly two bytes, else refused at the boundary (R34, D11). -/
def presentBytes (bytes : List Byte) (s : State) : Result :=
  match bytes with
  | [b0, b1] => .next (s.presentWord (wordOfBytes b0 b1))
  | bs => .refused (.inputNotTwoBytes bs.length)

/-- The window at an offset: any two adjacent bytes inside the region, even or odd (R31, R33); both bytes are one
snapshot (R36). -/
def presentWindow (a : Nat) (s : State) : Result :=
  match firstOutside? a 2 with
  | none => .next (s.presentWord (s.windowAt a))
  | some b => .refused (.outsideRegion b)

/-- `Address::from_offset(n)` called for its result: the range error is fatal to the caller's operation (R57, R154);
otherwise the number is on `off_in` and the result follows on `off_addr`. -/
def callFromOffset (n : Nat) (s : State) : Result :=
  match addressFromOffset n with
  | .error e => .fault (.constructionRangeError e.offset)
  | .ok a => .next (s.driveOffIn (offsetOfAddress a))

/-- A store of the execution stage (R39). -/
def storeInput (a : Nat) (b : Byte) (s : State) : Result :=
  match firstOutside? a 1 with
  | none => .next (s.storeByte a b)
  | some c => .refused (.outsideRegion c)

/-- A load of program bytes (R37, R172). -/
def loadInput (base : Nat) (bytes : List Byte) (s : State) : Result :=
  match firstOutside? base bytes.length with
  | none => .next (s.loadBytes base bytes)
  | some c => .refused (.outsideRegion c)

/-- One input, taken from the head of the list. -/
def applyInput (i : Input) (s : State) : Result :=
  match i with
  | .present bytes => presentBytes bytes s
  | .window a => presentWindow a s
  | .callOffset n => callFromOffset n s
  | .driveOffset n => .next (s.driveOffIn n)
  | .store a b => storeInput a b s
  | .loadRom base bytes => loadInput base bytes s

/-- The surroundings' part of a step: the oldest input is taken; with none waiting, the input ports keep their values. -/
def takeInput (s : State) : Result :=
  match s.inputs with
  | [] => .next s
  | i :: rest => applyInput i (s.setInputs rest)

end Sys2Proof.Machine
end

