-- ==== Sys2Proof/Machine/Operands.lean ====
section
/-! DEFINITION. The six operand forms of R52 as port images (the format table of R68): an operand output the variant does
not carry reads as zero (R25, D5). Beside them `portImage`, the same mapping as one function of the result. -/

namespace Sys2Proof.Machine

/-- Format Z: no operand (R52, R68). -/
def State.driveZ (s : State) (tag : Tag) : State := s.driveResult tag 0 0 0 0 0

/-- Format A: the `Address` on `addr` (R52, R68). -/
def State.driveA (s : State) (tag : Tag) (a : Address) : State := s.driveResult tag 0 0 a 0 0

/-- Format XK: the `Var` on `vx`, the `Const8` on `k8` (R52, R68). -/
def State.driveXK (s : State) (tag : Tag) (x : Var) (k : Const8) : State := s.driveResult tag x 0 0 k 0

/-- Format XY: the first `Var` on `vx`, the second on `vy` (R52, R68). -/
def State.driveXY (s : State) (tag : Tag) (x y : Var) : State := s.driveResult tag x y 0 0 0

/-- Format XYH: the two `Var`s and the `Const4` on `k4` (R52, R68). -/
def State.driveXYH (s : State) (tag : Tag) (x y : Var) (h : Const4) : State := s.driveResult tag x y 0 0 h

/-- Format X: the `Var` on `vx` (R52, R68). -/
def State.driveX (s : State) (tag : Tag) (x : Var) : State := s.driveResult tag x 0 0 0 0

/-! ## The mapping from a result to port values (R25), row by row of the format table of R68 -/

/-- The image of an accepted word, from the nibbles of the word and the format of its variant (the table under R68). -/
def formatImage (v : Variant) (q : Quartet) : Outputs :=
  let blank : Outputs :=
    { quartet := q.toWord, ok := true, tag := v.tag, vx := 0, vy := 0, addr := 0, k8 := 0, k4 := 0 }
  match v.format with
  | .z => blank
  | .a => { blank with addr := q.n1 ++ q.n2 ++ q.n3 }
  | .xk => { blank with vx := q.n1, k8 := q.n2 ++ q.n3 }
  | .xy => { blank with vx := q.n1, vy := q.n2 }
  | .xyh => { blank with vx := q.n1, vy := q.n2, k4 := q.n3 }
  | .x => { blank with vx := q.n1 }

/-- The image of a failure: `ok = 0`, `tag = 63`, all operand outputs zero (the last row of the table under R68). -/
def failureImage (q : Quartet) : Outputs :=
  { quartet := q.toWord, ok := false, tag := 63, vx := 0, vy := 0, addr := 0, k8 := 0, k4 := 0 }

/-- The values of the result ports for a word on `op_in` (R25, R26, R68). -/
def portImage (w : Word) : Outputs :=
  let q := extractNibbles (firstByte w) (secondByte w)
  match dispatchVariant q with
  | some v => formatImage v q
  | none => failureImage q

/-! ## Reading a result back from the ports (R25: the mapping is injective) -/

/-- The instruction a variant makes of the operand outputs. -/
def instrOfPorts (v : Variant) (o : Outputs) : Instr :=
  match v with
  | .ret => .ret
  | .clearScreen => .clearScreen
  | .callMachineRoutine => .callMachineRoutine o.addr
  | .jump => .jump o.addr
  | .callSubroutine => .callSubroutine o.addr
  | .skipIfEqualConst => .skipIfEqualConst o.vx o.k8
  | .skipIfNotEqualConst => .skipIfNotEqualConst o.vx o.k8
  | .skipIfEqual => .skipIfEqual o.vx o.vy
  | .setConst => .setConst o.vx o.k8
  | .addConst => .addConst o.vx o.k8
  | .set => .set o.vx o.vy
  | .or => .or o.vx o.vy
  | .and => .and o.vx o.vy
  | .xor => .xor o.vx o.vy
  | .addReg => .addReg o.vx o.vy
  | .subReg => .subReg o.vx o.vy
  | .shiftRight => .shiftRight o.vx o.vy
  | .subRegReverse => .subRegReverse o.vx o.vy
  | .shiftLeft => .shiftLeft o.vx o.vy
  | .skipIfNotEqual => .skipIfNotEqual o.vx o.vy
  | .setIndex => .setIndex o.addr
  | .jumpWithOffset => .jumpWithOffset o.addr
  | .random => .random o.vx o.k8
  | .draw => .draw o.vx o.vy o.k4
  | .keyPressed => .keyPressed o.vx
  | .keyNotPressed => .keyNotPressed o.vx
  | .getDelayTimer => .getDelayTimer o.vx
  | .waitForKey => .waitForKey o.vx
  | .setDelayTimer => .setDelayTimer o.vx
  | .setSoundTimer => .setSoundTimer o.vx
  | .addToIndex => .addToIndex o.vx
  | .setIndexToSprite => .setIndexToSprite o.vx
  | .storeBcd => .storeBcd o.vx
  | .storeRegisters => .storeRegisters o.vx
  | .loadRegisters => .loadRegisters o.vx

/-- The result the ports carry, testing `ok` before the variant or any operand (R176); none for a tag that never
appears beside `ok = 1` (R68). -/
def Outputs.result? (o : Outputs) : Option DecodeResult :=
  if o.ok then (variantOfTag o.tag).map fun v => .ok (instrOfPorts v o)
  else some (.fail (.unrecognized (extractNibbles (firstByte o.quartet) (secondByte o.quartet))))

end Sys2Proof.Machine
end

