-- ==== Sys2Proof/Machine/ConstOps.lean ====
section
/-! DEFINITION. The meanings of Groups 0x6 and 0x7 (43_const_ops.md, R109, R110). "The block turns the word into the instruction value and does
nothing else": a meaning drives the result ports. What executing the instruction does is outside the block (R4). -/

namespace Sys2Proof.Machine

/-- `SetConst` (R109): tag 8, format XK; `vx` the register index, `k8` the constant. -/
def execSetConst (x : Var) (k : Const8) (s : State) : Result := .next (s.driveXK 8 x k)

/-- `AddConst` (R110): tag 9, format XK; `vx` the register index, `k8` the constant. -/
def execAddConst (x : Var) (k : Const8) (s : State) : Result := .next (s.driveXK 9 x k)

end Sys2Proof.Machine
end

