-- ==== Sys2Proof/Machine/DrawSprite.lean ====
section
/-! DEFINITION. The meanings of Group 0xD (46_draw.md, R125). "The block turns the word into the instruction value and does
nothing else": a meaning drives the result ports. What executing the instruction does is outside the block (R4). -/

namespace Sys2Proof.Machine

/-- `Draw` (R125): tag 23, format XYH; `vx` and `vy` the register indices, `k4` the height. -/
def execDraw (x y : Var) (h : Const4) (s : State) : Result := .next (s.driveXYH 23 x y h)

end Sys2Proof.Machine
end

