-- ==== Sys2Proof/Machine/Group0.lean ====
section
/-! DEFINITION. The meanings of Group 0x0 (40_group0_system.md, R100 to R103). "The block turns the word into the instruction value and does
nothing else": a meaning drives the result ports. What executing the instruction does is outside the block (R4). -/

namespace Sys2Proof.Machine

/-- `Return` (R101): tag 0, format Z; no operand output. -/
def execRet (s : State) : Result := .next (s.driveZ 0)

/-- `ClearScreen` (R102): tag 1, format Z; no operand output. -/
def execClearScreen (s : State) : Result := .next (s.driveZ 1)

/-- `CallMachineRoutine` (R103): tag 2, format A; `addr` the address. -/
def execCallMachineRoutine (a : Address) (s : State) : Result := .next (s.driveA 2 a)

end Sys2Proof.Machine
end

