-- ==== Sys2Proof/Machine/Group8.lean ====
section
/-! DEFINITION. The meanings of Group 0x8 (44_group8_alu.md, R111 to R120). "The block turns the word into the instruction value and does
nothing else": a meaning drives the result ports. What executing the instruction does is outside the block (R4). -/

namespace Sys2Proof.Machine

/-- `Set` (R112): tag 10, format XY; `vx` the first and `vy` the second register index. -/
def execSet (x y : Var) (s : State) : Result := .next (s.driveXY 10 x y)

/-- `Or` (R113): tag 11, format XY; `vx` the first and `vy` the second register index. -/
def execOr (x y : Var) (s : State) : Result := .next (s.driveXY 11 x y)

/-- `And` (R114): tag 12, format XY; `vx` the first and `vy` the second register index. -/
def execAnd (x y : Var) (s : State) : Result := .next (s.driveXY 12 x y)

/-- `Xor` (R115): tag 13, format XY; `vx` the first and `vy` the second register index. -/
def execXor (x y : Var) (s : State) : Result := .next (s.driveXY 13 x y)

/-- `AddReg` (R116): tag 14, format XY; `vx` the first and `vy` the second register index. -/
def execAddReg (x y : Var) (s : State) : Result := .next (s.driveXY 14 x y)

/-- `SubReg` (R117): tag 15, format XY; `vx` the first and `vy` the second register index. -/
def execSubReg (x y : Var) (s : State) : Result := .next (s.driveXY 15 x y)

/-- `ShiftRight` (R118): tag 16, format XY; `vx` the first and `vy` the second register index. -/
def execShiftRight (x y : Var) (s : State) : Result := .next (s.driveXY 16 x y)

/-- `SubRegReverse` (R119): tag 17, format XY; `vx` the first and `vy` the second register index. -/
def execSubRegReverse (x y : Var) (s : State) : Result := .next (s.driveXY 17 x y)

/-- `ShiftLeft` (R120): tag 18, format XY; `vx` the first and `vy` the second register index. -/
def execShiftLeft (x y : Var) (s : State) : Result := .next (s.driveXY 18 x y)

end Sys2Proof.Machine
end

