-- ==== Sys2Proof/Machine/IndexJumpRandom.lean ====
section
/-! DEFINITION. The meanings of Groups 0x9, 0xA, 0xB and 0xC (45_skipne_index_jumpoff_random.md, R121 to R124). "The block turns the word into the instruction value and does
nothing else": a meaning drives the result ports. What executing the instruction does is outside the block (R4). -/

namespace Sys2Proof.Machine

/-- `SkipIfNotEqual` (R121): tag 19, format XY; `vx` the first and `vy` the second register index. -/
def execSkipIfNotEqual (x y : Var) (s : State) : Result := .next (s.driveXY 19 x y)

/-- `SetIndex` (R122): tag 20, format A; `addr` the address. -/
def execSetIndex (a : Address) (s : State) : Result := .next (s.driveA 20 a)

/-- `JumpWithOffset` (R123): tag 21, format A; `addr` the address. -/
def execJumpWithOffset (a : Address) (s : State) : Result := .next (s.driveA 21 a)

/-- `Random` (R124): tag 22, format XK; `vx` the register index, `k8` the constant. -/
def execRandom (x : Var) (k : Const8) (s : State) : Result := .next (s.driveXK 22 x k)

end Sys2Proof.Machine
end

