-- ==== Sys2Proof/Machine/JumpCall.lean ====
section
/-! DEFINITION. The meanings of Groups 0x1 and 0x2 (41_jump_call.md, R104, R105). "The block turns the word into the instruction value and does
nothing else": a meaning drives the result ports. What executing the instruction does is outside the block (R4). -/

namespace Sys2Proof.Machine

/-- `Jump` (R104): tag 3, format A; `addr` the address. -/
def execJump (a : Address) (s : State) : Result := .next (s.driveA 3 a)

/-- `CallSubroutine` (R105): tag 4, format A; `addr` the address. -/
def execCallSubroutine (a : Address) (s : State) : Result := .next (s.driveA 4 a)

end Sys2Proof.Machine
end

