-- ==== Sys2Proof/Machine/Keys.lean ====
section
/-! DEFINITION. The meanings of Group 0xE (47_groupE_keys.md, R126 to R128). "The block turns the word into the instruction value and does
nothing else": a meaning drives the result ports. What executing the instruction does is outside the block (R4). -/

namespace Sys2Proof.Machine

/-- `KeyPressed` (R127): tag 24, format X; `vx` the register index. -/
def execKeyPressed (x : Var) (s : State) : Result := .next (s.driveX 24 x)

/-- `KeyNotPressed` (R128): tag 25, format X; `vx` the register index. -/
def execKeyNotPressed (x : Var) (s : State) : Result := .next (s.driveX 25 x)

end Sys2Proof.Machine
end

