-- ==== Sys2Proof/Machine/Misc.lean ====
section
/-! DEFINITION. The meanings of Group 0xF (48_groupF_misc.md, R129 to R138). "The block turns the word into the instruction value and does
nothing else": a meaning drives the result ports. What executing the instruction does is outside the block (R4). -/

namespace Sys2Proof.Machine

/-- `GetDelayTimer` (R130): tag 26, format X; `vx` the register index. -/
def execGetDelayTimer (x : Var) (s : State) : Result := .next (s.driveX 26 x)

/-- `WaitForKey` (R131): tag 27, format X; `vx` the register index. -/
def execWaitForKey (x : Var) (s : State) : Result := .next (s.driveX 27 x)

/-- `SetDelayTimer` (R132): tag 28, format X; `vx` the register index. -/
def execSetDelayTimer (x : Var) (s : State) : Result := .next (s.driveX 28 x)

/-- `SetSoundTimer` (R133): tag 29, format X; `vx` the register index. -/
def execSetSoundTimer (x : Var) (s : State) : Result := .next (s.driveX 29 x)

/-- `AddToIndex` (R134): tag 30, format X; `vx` the register index. -/
def execAddToIndex (x : Var) (s : State) : Result := .next (s.driveX 30 x)

/-- `SetIndexToSprite` (R135): tag 31, format X; `vx` the register index. -/
def execSetIndexToSprite (x : Var) (s : State) : Result := .next (s.driveX 31 x)

/-- `StoreBcd` (R136): tag 32, format X; `vx` the register index. -/
def execStoreBcd (x : Var) (s : State) : Result := .next (s.driveX 32 x)

/-- `StoreRegisters` (R137): tag 33, format X; `vx` the register index. -/
def execStoreRegisters (x : Var) (s : State) : Result := .next (s.driveX 33 x)

/-- `LoadRegisters` (R138): tag 34, format X; `vx` the register index. -/
def execLoadRegisters (x : Var) (s : State) : Result := .next (s.driveX 34 x)

end Sys2Proof.Machine
end

