-- ==== Sys2Proof/Machine/SkipConstReg.lean ====
section
/-! DEFINITION. The meanings of Groups 0x3, 0x4 and 0x5 (42_skip_const_reg.md, R106 to R108). "The block turns the word into the instruction value and does
nothing else": a meaning drives the result ports. What executing the instruction does is outside the block (R4). -/

namespace Sys2Proof.Machine

/-- `SkipIfEqualConst` (R106): tag 5, format XK; `vx` the register index, `k8` the constant. -/
def execSkipIfEqualConst (x : Var) (k : Const8) (s : State) : Result := .next (s.driveXK 5 x k)

/-- `SkipIfNotEqualConst` (R107): tag 6, format XK; `vx` the register index, `k8` the constant. -/
def execSkipIfNotEqualConst (x : Var) (k : Const8) (s : State) : Result := .next (s.driveXK 6 x k)

/-- `SkipIfEqual` (R108): tag 7, format XY; `vx` the first and `vy` the second register index. -/
def execSkipIfEqual (x y : Var) (s : State) : Result := .next (s.driveXY 7 x y)

end Sys2Proof.Machine
end

