-- ==== Sys2Proof/Machine/Dispatch.lean ====
section
/-! DEFINITION. Which meaning each instruction has: one arm per constructor of Instr, one direct call each. -/

namespace Sys2Proof.Machine

/-- The meaning of one instruction: the block returns it (R17), driving its result ports. -/
def exec (i : Instr) (s : State) : Host.Outcome State Fault Refusal :=
  match i with
  | .ret => Sys2Proof.Machine.execRet s
  | .clearScreen => Sys2Proof.Machine.execClearScreen s
  | .callMachineRoutine a => Sys2Proof.Machine.execCallMachineRoutine a s
  | .jump a => Sys2Proof.Machine.execJump a s
  | .callSubroutine a => Sys2Proof.Machine.execCallSubroutine a s
  | .skipIfEqualConst x k => Sys2Proof.Machine.execSkipIfEqualConst x k s
  | .skipIfNotEqualConst x k => Sys2Proof.Machine.execSkipIfNotEqualConst x k s
  | .skipIfEqual x y => Sys2Proof.Machine.execSkipIfEqual x y s
  | .setConst x k => Sys2Proof.Machine.execSetConst x k s
  | .addConst x k => Sys2Proof.Machine.execAddConst x k s
  | .set x y => Sys2Proof.Machine.execSet x y s
  | .or x y => Sys2Proof.Machine.execOr x y s
  | .and x y => Sys2Proof.Machine.execAnd x y s
  | .xor x y => Sys2Proof.Machine.execXor x y s
  | .addReg x y => Sys2Proof.Machine.execAddReg x y s
  | .subReg x y => Sys2Proof.Machine.execSubReg x y s
  | .shiftRight x y => Sys2Proof.Machine.execShiftRight x y s
  | .subRegReverse x y => Sys2Proof.Machine.execSubRegReverse x y s
  | .shiftLeft x y => Sys2Proof.Machine.execShiftLeft x y s
  | .skipIfNotEqual x y => Sys2Proof.Machine.execSkipIfNotEqual x y s
  | .setIndex a => Sys2Proof.Machine.execSetIndex a s
  | .jumpWithOffset a => Sys2Proof.Machine.execJumpWithOffset a s
  | .random x k => Sys2Proof.Machine.execRandom x k s
  | .draw x y h => Sys2Proof.Machine.execDraw x y h s
  | .keyPressed x => Sys2Proof.Machine.execKeyPressed x s
  | .keyNotPressed x => Sys2Proof.Machine.execKeyNotPressed x s
  | .getDelayTimer x => Sys2Proof.Machine.execGetDelayTimer x s
  | .waitForKey x => Sys2Proof.Machine.execWaitForKey x s
  | .setDelayTimer x => Sys2Proof.Machine.execSetDelayTimer x s
  | .setSoundTimer x => Sys2Proof.Machine.execSetSoundTimer x s
  | .addToIndex x => Sys2Proof.Machine.execAddToIndex x s
  | .setIndexToSprite x => Sys2Proof.Machine.execSetIndexToSprite x s
  | .storeBcd x => Sys2Proof.Machine.execStoreBcd x s
  | .storeRegisters x => Sys2Proof.Machine.execStoreRegisters x s
  | .loadRegisters x => Sys2Proof.Machine.execLoadRegisters x s

end Sys2Proof.Machine
end

