-- ==== Sys2Proof/Machine/Flags.lean ====
section
/-! DEFINITION. The block has no stored flag and no condition code (R22). Its two status outputs are `ok`, driven with the
result (Ops.lean), and `off_err` of the optional offset path, computed here (R27). -/

namespace Sys2Proof.Machine

/-- `off_err`: 1 when `off_in > 4095`, an unsigned comparison (R27, R57, R70). -/
def offsetError (n : BitVec Config.offsetBits) : Bool := decide (4095 < n.toNat)

/-- The offset path follows `off_in` (R27): below the bound `off_addr` is `off_in[11:0]`, above it `off_err = 1` and
`off_addr` is a free value (U2, log entry 5). -/
def State.settleOffset (s : State) : State :=
  if offsetError s.offIn then
    { s with offErr := true, offAddr := Config.unspecifiedOffAddr s.draws, draws := s.draws + 1 }
  else
    { s with offErr := false, offAddr := s.offIn.extractLsb' 0 12 }

end Sys2Proof.Machine
end

