-- ==== Sys2Proof/Machine/Settle.lean ====
section
/-! DEFINITION. The block's part of a step: every output follows the input ports (R10, R23), the offset path and the
decode path each by itself (R27). -/

namespace Sys2Proof.Machine

/-- The state in which the decode result is returned: the offset path has settled and `nibble_extractor` drives the
quartet. -/
def State.extracted (s : State) : State := s.settleOffset.driveQuartet

/-- Decode the word on `op_in` and return the result: the instruction's meaning, or the failure as an ordinary result
(R17, R151, R152). -/
def settle (s : State) : Result :=
  match decodeWord s.opIn with
  | .ok i => exec i s.extracted
  | .fail f => .next (s.extracted.reportFailure f)

end Sys2Proof.Machine
end

