-- ==== Sys2Proof/Machine/Step.lean ====
section
/-! DEFINITION. One step: the surroundings act once, and the block's outputs follow (log entry 1). -/

namespace Sys2Proof.Machine

/-- One step of the machine. -/
def step (s : State) : Host.Outcome State Fault Refusal :=
  match takeInput s with
  | .next t => settle t
  | .fault f => .fault f
  | .refused r => .refused r

/-- The state whose very next step decodes and runs the given table word: its two bytes, first byte first (R32), are
what the caller presents next (log entry 7). -/
def State.withFetchWord (s : State) (nbits w : Nat) : State :=
  { s with
    inputs := .present [firstByte (BitVec.ofNat 16 (w % 2 ^ nbits)), secondByte (BitVec.ofNat 16 (w % 2 ^ nbits))]
      :: s.inputs }

end Sys2Proof.Machine
end

