-- ==== Sys2Proof/Machine/Consumer.lean ====
section
/-! DEFINITION. The consumer's side of a result (R158, R176), outside the block: what it may do with the ports. Its policy
on a decode failure is a parameter (`FAIL_POLICY`, D12), and executing an instruction is handed over by name only, since
the spec gives no execution (R4, D21). -/

namespace Sys2Proof.Machine

/-- What the consumer does next. -/
inductive ConsumerAction where
  /-- Hand the instruction to the execution stage, an external collaborator (R4). -/
  | execute (i : Instr)
  /-- Skip the word as a no-op or raw data word (R152, R158). -/
  | skip
  /-- Log the offending quartet and skip (R151, R158). -/
  | logAndSkip (q : Quartet)
  /-- Halt execution (R158). -/
  | halt
  deriving DecidableEq, Repr

/-- The consumer's policy applied to a decode failure (R158, D12). -/
def onFailure (p : Config.FailPolicy) (f : DecodeFailure) : ConsumerAction :=
  match p, f with
  | .skip, _ => .skip
  | .logAndSkip, .unrecognized q => .logAndSkip q
  | .halt, _ => .halt

/-- The consumer tests the result kind before it uses the variant or any operand (R176); none only for port values the
block never drives. -/
def consume (p : Config.FailPolicy) (o : Outputs) : Option ConsumerAction :=
  match o.result? with
  | some (.ok i) => some (.execute i)
  | some (.fail f) => some (onFailure p f)
  | none => none

end Sys2Proof.Machine
end

