-- ==== Sys2Proof/Safety.lean ====
section
/-! DEFINITION. What a state of the machine must satisfy, in the terms the statements use. -/

namespace Sys2Proof.Machine

/-- Every result port is the function of `op_in` (R10, R23, R25, R26). -/
def State.DecodeSettled (s : State) : Prop := s.out = portImage s.opIn

/-- The offset ports are the function of `off_in` (R27): `off_addr` is constrained only while `off_err = 0`. -/
def State.OffsetSettled (s : State) : Prop :=
  s.offErr = decide (4095 < s.offIn.toNat) ∧ (s.offErr = false → s.offAddr.toNat = s.offIn.toNat)

/-- The region's stored bytes are in canonical form and lie inside the region (R30). -/
def State.MemoryValid (s : State) : Prop :=
  Memory.wf s.mem = true ∧ ∀ a, (Memory.stored? s.mem a).isSome = true → a < Config.regionBytes

/-- The invariant of the machine. -/
structure State.Inv (s : State) : Prop where
  decodeSettled : s.DecodeSettled
  offsetSettled : s.OffsetSettled
  memoryValid : s.MemoryValid

end Sys2Proof.Machine
end

