-- ==== Sys2Proof/Laws/Memory.lean ====
section
/-! SUPPORT. The basic laws of the memory region: every operation keeps the canonical form, a read after a write gives the
value written, and a write leaves every other offset alone. -/

namespace Sys2Proof.Machine

/-- Dropping the first entry keeps the form. -/
theorem Memory.wf_tail {c : Host.Cell} {m : Memory} (h : Memory.wf (c :: m) = true) : Memory.wf m = true := by
  cases m with
  | nil => rfl
  | cons d m => simp only [Memory.wf, Bool.and_eq_true] at h; exact h.2

/-- An entry may stand before a memory in form when it lies below the memory's first entry. -/
theorem Memory.wf_cons {c : Host.Cell} {m : Memory} (hm : Memory.wf m = true)
    (hc : ∀ d ∈ m.head?, c.1 < d.1) : Memory.wf (c :: m) = true := by
  cases m with
  | nil => rfl
  | cons d m => simp only [Memory.wf, Bool.and_eq_true, decide_eq_true_eq]; exact ⟨hc d rfl, hm⟩

/-- What stands first after a store: the stored entry, or what stood first before. -/
theorem Memory.head_put (m : Memory) (a : Nat) (b : Byte) :
    ∀ d ∈ (Memory.put m a b).head?, d.1 = a ∨ ∃ e ∈ m.head?, d.1 = e.1 := by
  cases m with
  | nil => intro d hd; simp [Memory.put] at hd; subst hd; exact .inl rfl
  | cons c m =>
    intro d hd
    unfold Memory.put at hd
    split at hd
    · simp at hd; subst hd; exact .inl rfl
    · split at hd
      · simp at hd; subst hd; exact .inl rfl
      · simp at hd; subst hd; exact .inr ⟨c, rfl, rfl⟩

/-- A store keeps the canonical form. -/
theorem Memory.wf_put {m : Memory} (h : Memory.wf m = true) (a : Nat) (b : Byte) :
    Memory.wf (Memory.put m a b) = true := by
  induction m with
  | nil => rfl
  | cons c m ih =>
    obtain ⟨c, v⟩ := c
    have hc : ∀ d ∈ m.head?, c < d.1 := by
      cases m with
      | nil => intro d hd; cases hd
      | cons e m =>
        simp only [Memory.wf, Bool.and_eq_true, decide_eq_true_eq] at h
        intro d hd; cases hd; exact h.1
    have hm := Memory.wf_tail h
    unfold Memory.put
    split
    · exact Memory.wf_cons h (by intro d hd; cases hd; assumption)
    · split
      · subst_vars; exact Memory.wf_cons hm hc
      · refine Memory.wf_cons (ih hm) ?_
        intro d hd
        rcases Memory.head_put m a b d hd with hd | ⟨e, he, hd⟩
        · simp only; omega
        · simp only [hd]; exact hc e he

/-- A load keeps the canonical form. -/
theorem Memory.wf_putAll {m : Memory} (h : Memory.wf m = true) (a : Nat) (bs : List Byte) :
    Memory.wf (Memory.putAll m a bs) = true := by
  induction bs generalizing m a with
  | nil => exact h
  | cons b bs ih => exact ih (Memory.wf_put h a b) (a + 1)

/-- A read after a write to the same offset gives the value written. -/
@[simp] theorem Memory.stored?_put_same (m : Memory) (a : Nat) (b : Byte) :
    Memory.stored? (Memory.put m a b) a = some b := by
  induction m with
  | nil => simp [Memory.put, Memory.stored?]
  | cons c m ih =>
    obtain ⟨c, v⟩ := c
    unfold Memory.put
    split
    · simp [Memory.stored?]
    · split
      · simp [Memory.stored?]
      · simp [Memory.stored?, *]

/-- A write leaves every other offset alone. -/
theorem Memory.stored?_put_other (m : Memory) {a d : Nat} (b : Byte) (h : d ≠ a) :
    Memory.stored? (Memory.put m a b) d = Memory.stored? m d := by
  induction m with
  | nil => simp [Memory.put, Memory.stored?, h]
  | cons c m ih =>
    obtain ⟨c, v⟩ := c
    unfold Memory.put
    split
    · simp [Memory.stored?, h]
    · split
      · subst_vars; simp [Memory.stored?, h]
      · simp [Memory.stored?, ih]

/-- In the region means below its size (R30). -/
@[simp] theorem inRegion_iff (a : Nat) : inRegion a = true ↔ a < Config.regionBytes := by
  unfold inRegion
  rw [Bool.or_eq_true, decide_eq_true_iff, decide_eq_true_iff]
  unfold Config.regionBytes Config.minRegionBytes
  omega

/-- The guaranteed part of the region (R30). -/
theorem lt_regionBytes {a : Nat} (h : a < 4096) : a < Config.regionBytes := by
  simp only [Config.regionBytes, Config.minRegionBytes]; omega

/-- No offset of a run lies outside exactly when the whole run lies inside. -/
theorem firstOutside?_eq_none {a n : Nat} :
    firstOutside? a n = none ↔ ∀ k, k < n → a + k < Config.regionBytes := by
  induction n generalizing a with
  | zero => simp [firstOutside?]
  | succ n ih =>
    unfold firstOutside?
    by_cases h : a < Config.regionBytes
    · simp only [(inRegion_iff a).2 h, if_true, ih]
      constructor
      · intro hk k hlt
        cases k with
        | zero => exact h
        | succ k => have := hk k (by omega); omega
      · intro hk k hlt
        have := hk (k + 1) (by omega); omega
    · have hf : inRegion a = false := by
        cases hr : inRegion a with
        | false => rfl
        | true => exact absurd ((inRegion_iff a).1 hr) h
      simp only [hf]
      constructor
      · intro hc; cases hc
      · intro hk; exact absurd (hk 0 (by omega)) h

end Sys2Proof.Machine
end

