-- ==== Sys2Proof/Laws/State.lean ====
section
/-! SUPPORT. One lemma per field per update of State, so that no later proof unfolds a record update; and for the two
updates that are not plain record updates, what each can do. -/

namespace Sys2Proof.Machine

section
variable (s : State)

/-! `State.setInputs` -/

@[simp] theorem State.setInputs_opIn (l : List Input) :
    (s.setInputs l).opIn = s.opIn := rfl
@[simp] theorem State.setInputs_out (l : List Input) :
    (s.setInputs l).out = s.out := rfl
@[simp] theorem State.setInputs_offIn (l : List Input) :
    (s.setInputs l).offIn = s.offIn := rfl
@[simp] theorem State.setInputs_offErr (l : List Input) :
    (s.setInputs l).offErr = s.offErr := rfl
@[simp] theorem State.setInputs_offAddr (l : List Input) :
    (s.setInputs l).offAddr = s.offAddr := rfl
@[simp] theorem State.setInputs_mem (l : List Input) :
    (s.setInputs l).mem = s.mem := rfl
@[simp] theorem State.setInputs_inputs (l : List Input) :
    (s.setInputs l).inputs = l := rfl
@[simp] theorem State.setInputs_draws (l : List Input) :
    (s.setInputs l).draws = s.draws := rfl

/-! `State.presentWord` -/

@[simp] theorem State.presentWord_opIn (w : Word) :
    (s.presentWord w).opIn = w := rfl
@[simp] theorem State.presentWord_out (w : Word) :
    (s.presentWord w).out = s.out := rfl
@[simp] theorem State.presentWord_offIn (w : Word) :
    (s.presentWord w).offIn = s.offIn := rfl
@[simp] theorem State.presentWord_offErr (w : Word) :
    (s.presentWord w).offErr = s.offErr := rfl
@[simp] theorem State.presentWord_offAddr (w : Word) :
    (s.presentWord w).offAddr = s.offAddr := rfl
@[simp] theorem State.presentWord_mem (w : Word) :
    (s.presentWord w).mem = s.mem := rfl
@[simp] theorem State.presentWord_inputs (w : Word) :
    (s.presentWord w).inputs = s.inputs := rfl
@[simp] theorem State.presentWord_draws (w : Word) :
    (s.presentWord w).draws = s.draws := rfl

/-! `State.driveOffIn` -/

@[simp] theorem State.driveOffIn_opIn (n : BitVec Config.offsetBits) :
    (s.driveOffIn n).opIn = s.opIn := rfl
@[simp] theorem State.driveOffIn_out (n : BitVec Config.offsetBits) :
    (s.driveOffIn n).out = s.out := rfl
@[simp] theorem State.driveOffIn_offIn (n : BitVec Config.offsetBits) :
    (s.driveOffIn n).offIn = n := rfl
@[simp] theorem State.driveOffIn_offErr (n : BitVec Config.offsetBits) :
    (s.driveOffIn n).offErr = s.offErr := rfl
@[simp] theorem State.driveOffIn_offAddr (n : BitVec Config.offsetBits) :
    (s.driveOffIn n).offAddr = s.offAddr := rfl
@[simp] theorem State.driveOffIn_mem (n : BitVec Config.offsetBits) :
    (s.driveOffIn n).mem = s.mem := rfl
@[simp] theorem State.driveOffIn_inputs (n : BitVec Config.offsetBits) :
    (s.driveOffIn n).inputs = s.inputs := rfl
@[simp] theorem State.driveOffIn_draws (n : BitVec Config.offsetBits) :
    (s.driveOffIn n).draws = s.draws := rfl

/-- An address on `off_in` keeps its value. -/
@[simp] theorem offsetOfAddress_toNat (a : Address) : (offsetOfAddress a).toNat = a.toNat := rfl

/-- Numbers below 8192 fit on `off_in`, whatever its width: the boundary 4095 and 4096 always does. -/
theorem lt_two_pow_offsetBits {n : Nat} (h : n < 8192) : n < 2 ^ Config.offsetBits := by
  refine Nat.lt_of_lt_of_le h (Nat.pow_le_pow_right (n := 2) (i := 13) (by decide) ?_)
  simp only [Config.offsetBits, Config.minOffsetBits]; omega

/-! `State.storeByte` -/

@[simp] theorem State.storeByte_opIn (a : Nat) (b : Byte) :
    (s.storeByte a b).opIn = s.opIn := rfl
@[simp] theorem State.storeByte_out (a : Nat) (b : Byte) :
    (s.storeByte a b).out = s.out := rfl
@[simp] theorem State.storeByte_offIn (a : Nat) (b : Byte) :
    (s.storeByte a b).offIn = s.offIn := rfl
@[simp] theorem State.storeByte_offErr (a : Nat) (b : Byte) :
    (s.storeByte a b).offErr = s.offErr := rfl
@[simp] theorem State.storeByte_offAddr (a : Nat) (b : Byte) :
    (s.storeByte a b).offAddr = s.offAddr := rfl
@[simp] theorem State.storeByte_mem (a : Nat) (b : Byte) :
    (s.storeByte a b).mem = Memory.put s.mem a b := rfl
@[simp] theorem State.storeByte_inputs (a : Nat) (b : Byte) :
    (s.storeByte a b).inputs = s.inputs := rfl
@[simp] theorem State.storeByte_draws (a : Nat) (b : Byte) :
    (s.storeByte a b).draws = s.draws := rfl

/-! `State.loadBytes` -/

@[simp] theorem State.loadBytes_opIn (a : Nat) (bs : List Byte) :
    (s.loadBytes a bs).opIn = s.opIn := rfl
@[simp] theorem State.loadBytes_out (a : Nat) (bs : List Byte) :
    (s.loadBytes a bs).out = s.out := rfl
@[simp] theorem State.loadBytes_offIn (a : Nat) (bs : List Byte) :
    (s.loadBytes a bs).offIn = s.offIn := rfl
@[simp] theorem State.loadBytes_offErr (a : Nat) (bs : List Byte) :
    (s.loadBytes a bs).offErr = s.offErr := rfl
@[simp] theorem State.loadBytes_offAddr (a : Nat) (bs : List Byte) :
    (s.loadBytes a bs).offAddr = s.offAddr := rfl
@[simp] theorem State.loadBytes_mem (a : Nat) (bs : List Byte) :
    (s.loadBytes a bs).mem = Memory.putAll s.mem a bs := rfl
@[simp] theorem State.loadBytes_inputs (a : Nat) (bs : List Byte) :
    (s.loadBytes a bs).inputs = s.inputs := rfl
@[simp] theorem State.loadBytes_draws (a : Nat) (bs : List Byte) :
    (s.loadBytes a bs).draws = s.draws := rfl

/-! `State.driveQuartet` -/

@[simp] theorem State.driveQuartet_opIn :
    (s.driveQuartet).opIn = s.opIn := rfl
@[simp] theorem State.driveQuartet_out :
    (s.driveQuartet).out = { s.out with quartet := (extractNibbles (firstByte s.opIn) (secondByte s.opIn)).toWord } := rfl
@[simp] theorem State.driveQuartet_offIn :
    (s.driveQuartet).offIn = s.offIn := rfl
@[simp] theorem State.driveQuartet_offErr :
    (s.driveQuartet).offErr = s.offErr := rfl
@[simp] theorem State.driveQuartet_offAddr :
    (s.driveQuartet).offAddr = s.offAddr := rfl
@[simp] theorem State.driveQuartet_mem :
    (s.driveQuartet).mem = s.mem := rfl
@[simp] theorem State.driveQuartet_inputs :
    (s.driveQuartet).inputs = s.inputs := rfl
@[simp] theorem State.driveQuartet_draws :
    (s.driveQuartet).draws = s.draws := rfl

/-! `State.driveResult` -/

@[simp] theorem State.driveResult_opIn (t : Tag) (x y : Var) (a : Address) (k : Const8) (h : Const4) :
    (s.driveResult t x y a k h).opIn = s.opIn := rfl
@[simp] theorem State.driveResult_out (t : Tag) (x y : Var) (a : Address) (k : Const8) (h : Const4) :
    (s.driveResult t x y a k h).out = { quartet := s.out.quartet, ok := true, tag := t, vx := x, vy := y, addr := a, k8 := k, k4 := h } := rfl
@[simp] theorem State.driveResult_offIn (t : Tag) (x y : Var) (a : Address) (k : Const8) (h : Const4) :
    (s.driveResult t x y a k h).offIn = s.offIn := rfl
@[simp] theorem State.driveResult_offErr (t : Tag) (x y : Var) (a : Address) (k : Const8) (h : Const4) :
    (s.driveResult t x y a k h).offErr = s.offErr := rfl
@[simp] theorem State.driveResult_offAddr (t : Tag) (x y : Var) (a : Address) (k : Const8) (h : Const4) :
    (s.driveResult t x y a k h).offAddr = s.offAddr := rfl
@[simp] theorem State.driveResult_mem (t : Tag) (x y : Var) (a : Address) (k : Const8) (h : Const4) :
    (s.driveResult t x y a k h).mem = s.mem := rfl
@[simp] theorem State.driveResult_inputs (t : Tag) (x y : Var) (a : Address) (k : Const8) (h : Const4) :
    (s.driveResult t x y a k h).inputs = s.inputs := rfl
@[simp] theorem State.driveResult_draws (t : Tag) (x y : Var) (a : Address) (k : Const8) (h : Const4) :
    (s.driveResult t x y a k h).draws = s.draws := rfl

/-! `State.driveZ` -/

@[simp] theorem State.driveZ_opIn (t : Tag) :
    (s.driveZ t).opIn = s.opIn := rfl
@[simp] theorem State.driveZ_out (t : Tag) :
    (s.driveZ t).out = { quartet := s.out.quartet, ok := true, tag := t, vx := 0, vy := 0, addr := 0, k8 := 0, k4 := 0 } := rfl
@[simp] theorem State.driveZ_offIn (t : Tag) :
    (s.driveZ t).offIn = s.offIn := rfl
@[simp] theorem State.driveZ_offErr (t : Tag) :
    (s.driveZ t).offErr = s.offErr := rfl
@[simp] theorem State.driveZ_offAddr (t : Tag) :
    (s.driveZ t).offAddr = s.offAddr := rfl
@[simp] theorem State.driveZ_mem (t : Tag) :
    (s.driveZ t).mem = s.mem := rfl
@[simp] theorem State.driveZ_inputs (t : Tag) :
    (s.driveZ t).inputs = s.inputs := rfl
@[simp] theorem State.driveZ_draws (t : Tag) :
    (s.driveZ t).draws = s.draws := rfl

/-! `State.driveA` -/

@[simp] theorem State.driveA_opIn (t : Tag) (a : Address) :
    (s.driveA t a).opIn = s.opIn := rfl
@[simp] theorem State.driveA_out (t : Tag) (a : Address) :
    (s.driveA t a).out = { quartet := s.out.quartet, ok := true, tag := t, vx := 0, vy := 0, addr := a, k8 := 0, k4 := 0 } := rfl
@[simp] theorem State.driveA_offIn (t : Tag) (a : Address) :
    (s.driveA t a).offIn = s.offIn := rfl
@[simp] theorem State.driveA_offErr (t : Tag) (a : Address) :
    (s.driveA t a).offErr = s.offErr := rfl
@[simp] theorem State.driveA_offAddr (t : Tag) (a : Address) :
    (s.driveA t a).offAddr = s.offAddr := rfl
@[simp] theorem State.driveA_mem (t : Tag) (a : Address) :
    (s.driveA t a).mem = s.mem := rfl
@[simp] theorem State.driveA_inputs (t : Tag) (a : Address) :
    (s.driveA t a).inputs = s.inputs := rfl
@[simp] theorem State.driveA_draws (t : Tag) (a : Address) :
    (s.driveA t a).draws = s.draws := rfl

/-! `State.driveXK` -/

@[simp] theorem State.driveXK_opIn (t : Tag) (x : Var) (k : Const8) :
    (s.driveXK t x k).opIn = s.opIn := rfl
@[simp] theorem State.driveXK_out (t : Tag) (x : Var) (k : Const8) :
    (s.driveXK t x k).out = { quartet := s.out.quartet, ok := true, tag := t, vx := x, vy := 0, addr := 0, k8 := k, k4 := 0 } := rfl
@[simp] theorem State.driveXK_offIn (t : Tag) (x : Var) (k : Const8) :
    (s.driveXK t x k).offIn = s.offIn := rfl
@[simp] theorem State.driveXK_offErr (t : Tag) (x : Var) (k : Const8) :
    (s.driveXK t x k).offErr = s.offErr := rfl
@[simp] theorem State.driveXK_offAddr (t : Tag) (x : Var) (k : Const8) :
    (s.driveXK t x k).offAddr = s.offAddr := rfl
@[simp] theorem State.driveXK_mem (t : Tag) (x : Var) (k : Const8) :
    (s.driveXK t x k).mem = s.mem := rfl
@[simp] theorem State.driveXK_inputs (t : Tag) (x : Var) (k : Const8) :
    (s.driveXK t x k).inputs = s.inputs := rfl
@[simp] theorem State.driveXK_draws (t : Tag) (x : Var) (k : Const8) :
    (s.driveXK t x k).draws = s.draws := rfl

/-! `State.driveXY` -/

@[simp] theorem State.driveXY_opIn (t : Tag) (x y : Var) :
    (s.driveXY t x y).opIn = s.opIn := rfl
@[simp] theorem State.driveXY_out (t : Tag) (x y : Var) :
    (s.driveXY t x y).out = { quartet := s.out.quartet, ok := true, tag := t, vx := x, vy := y, addr := 0, k8 := 0, k4 := 0 } := rfl
@[simp] theorem State.driveXY_offIn (t : Tag) (x y : Var) :
    (s.driveXY t x y).offIn = s.offIn := rfl
@[simp] theorem State.driveXY_offErr (t : Tag) (x y : Var) :
    (s.driveXY t x y).offErr = s.offErr := rfl
@[simp] theorem State.driveXY_offAddr (t : Tag) (x y : Var) :
    (s.driveXY t x y).offAddr = s.offAddr := rfl
@[simp] theorem State.driveXY_mem (t : Tag) (x y : Var) :
    (s.driveXY t x y).mem = s.mem := rfl
@[simp] theorem State.driveXY_inputs (t : Tag) (x y : Var) :
    (s.driveXY t x y).inputs = s.inputs := rfl
@[simp] theorem State.driveXY_draws (t : Tag) (x y : Var) :
    (s.driveXY t x y).draws = s.draws := rfl

/-! `State.driveXYH` -/

@[simp] theorem State.driveXYH_opIn (t : Tag) (x y : Var) (h : Const4) :
    (s.driveXYH t x y h).opIn = s.opIn := rfl
@[simp] theorem State.driveXYH_out (t : Tag) (x y : Var) (h : Const4) :
    (s.driveXYH t x y h).out = { quartet := s.out.quartet, ok := true, tag := t, vx := x, vy := y, addr := 0, k8 := 0, k4 := h } := rfl
@[simp] theorem State.driveXYH_offIn (t : Tag) (x y : Var) (h : Const4) :
    (s.driveXYH t x y h).offIn = s.offIn := rfl
@[simp] theorem State.driveXYH_offErr (t : Tag) (x y : Var) (h : Const4) :
    (s.driveXYH t x y h).offErr = s.offErr := rfl
@[simp] theorem State.driveXYH_offAddr (t : Tag) (x y : Var) (h : Const4) :
    (s.driveXYH t x y h).offAddr = s.offAddr := rfl
@[simp] theorem State.driveXYH_mem (t : Tag) (x y : Var) (h : Const4) :
    (s.driveXYH t x y h).mem = s.mem := rfl
@[simp] theorem State.driveXYH_inputs (t : Tag) (x y : Var) (h : Const4) :
    (s.driveXYH t x y h).inputs = s.inputs := rfl
@[simp] theorem State.driveXYH_draws (t : Tag) (x y : Var) (h : Const4) :
    (s.driveXYH t x y h).draws = s.draws := rfl

/-! `State.driveX` -/

@[simp] theorem State.driveX_opIn (t : Tag) (x : Var) :
    (s.driveX t x).opIn = s.opIn := rfl
@[simp] theorem State.driveX_out (t : Tag) (x : Var) :
    (s.driveX t x).out = { quartet := s.out.quartet, ok := true, tag := t, vx := x, vy := 0, addr := 0, k8 := 0, k4 := 0 } := rfl
@[simp] theorem State.driveX_offIn (t : Tag) (x : Var) :
    (s.driveX t x).offIn = s.offIn := rfl
@[simp] theorem State.driveX_offErr (t : Tag) (x : Var) :
    (s.driveX t x).offErr = s.offErr := rfl
@[simp] theorem State.driveX_offAddr (t : Tag) (x : Var) :
    (s.driveX t x).offAddr = s.offAddr := rfl
@[simp] theorem State.driveX_mem (t : Tag) (x : Var) :
    (s.driveX t x).mem = s.mem := rfl
@[simp] theorem State.driveX_inputs (t : Tag) (x : Var) :
    (s.driveX t x).inputs = s.inputs := rfl
@[simp] theorem State.driveX_draws (t : Tag) (x : Var) :
    (s.driveX t x).draws = s.draws := rfl

/-! `State.reportFailure` -/

@[simp] theorem State.reportFailure_opIn (q : Quartet) :
    (s.reportFailure (.unrecognized q)).opIn = s.opIn := rfl
@[simp] theorem State.reportFailure_out (q : Quartet) :
    (s.reportFailure (.unrecognized q)).out = { quartet := q.toWord, ok := false, tag := 63, vx := 0, vy := 0, addr := 0, k8 := 0, k4 := 0 } := rfl
@[simp] theorem State.reportFailure_offIn (q : Quartet) :
    (s.reportFailure (.unrecognized q)).offIn = s.offIn := rfl
@[simp] theorem State.reportFailure_offErr (q : Quartet) :
    (s.reportFailure (.unrecognized q)).offErr = s.offErr := rfl
@[simp] theorem State.reportFailure_offAddr (q : Quartet) :
    (s.reportFailure (.unrecognized q)).offAddr = s.offAddr := rfl
@[simp] theorem State.reportFailure_mem (q : Quartet) :
    (s.reportFailure (.unrecognized q)).mem = s.mem := rfl
@[simp] theorem State.reportFailure_inputs (q : Quartet) :
    (s.reportFailure (.unrecognized q)).inputs = s.inputs := rfl
@[simp] theorem State.reportFailure_draws (q : Quartet) :
    (s.reportFailure (.unrecognized q)).draws = s.draws := rfl

/-! `State.settleOffset` and `State.extracted` -/

/-- Everything the offset path can do (R27). -/
theorem State.settleOffset_cases :
    (s.offIn.toNat ≤ 4095 ∧
      s.settleOffset = { s with offErr := false, offAddr := s.offIn.extractLsb' 0 12 }) ∨
    (4095 < s.offIn.toNat ∧
      s.settleOffset =
        { s with offErr := true, offAddr := Config.unspecifiedOffAddr s.draws, draws := s.draws + 1 }) := by
  unfold State.settleOffset offsetError
  by_cases h : 4095 < s.offIn.toNat
  · exact .inr ⟨h, by simp [h]⟩
  · exact .inl ⟨by omega, by simp [h]⟩

@[simp] theorem State.settleOffset_opIn : s.settleOffset.opIn = s.opIn := by
  unfold State.settleOffset; split <;> rfl
@[simp] theorem State.settleOffset_out : s.settleOffset.out = s.out := by
  unfold State.settleOffset; split <;> rfl
@[simp] theorem State.settleOffset_offIn : s.settleOffset.offIn = s.offIn := by
  unfold State.settleOffset; split <;> rfl
@[simp] theorem State.settleOffset_mem : s.settleOffset.mem = s.mem := by
  unfold State.settleOffset; split <;> rfl
@[simp] theorem State.settleOffset_inputs : s.settleOffset.inputs = s.inputs := by
  unfold State.settleOffset; split <;> rfl

@[simp] theorem State.settleOffset_offErr : s.settleOffset.offErr = decide (4095 < s.offIn.toNat) := by
  unfold State.settleOffset offsetError; split <;> simp_all

@[simp] theorem State.extracted_opIn : s.extracted.opIn = s.opIn := by simp [State.extracted]
@[simp] theorem State.extracted_offIn : s.extracted.offIn = s.offIn := by simp [State.extracted]
@[simp] theorem State.extracted_mem : s.extracted.mem = s.mem := by simp [State.extracted]
@[simp] theorem State.extracted_inputs : s.extracted.inputs = s.inputs := by simp [State.extracted]

@[simp] theorem State.extracted_offErr : s.extracted.offErr = decide (4095 < s.offIn.toNat) := by
  simp [State.extracted]

@[simp] theorem State.extracted_offAddr : s.extracted.offAddr = s.settleOffset.offAddr := rfl

@[simp] theorem State.extracted_draws : s.extracted.draws = s.settleOffset.draws := rfl

@[simp] theorem State.extracted_out :
    s.extracted.out =
      { s.out with quartet := (extractNibbles (firstByte s.opIn) (secondByte s.opIn)).toWord } := by
  simp [State.extracted]

/-! `State.withFetchWord` -/

@[simp] theorem State.withFetchWord_opIn (nbits w : Nat) : (s.withFetchWord nbits w).opIn = s.opIn := rfl
@[simp] theorem State.withFetchWord_out (nbits w : Nat) : (s.withFetchWord nbits w).out = s.out := rfl
@[simp] theorem State.withFetchWord_offIn (nbits w : Nat) : (s.withFetchWord nbits w).offIn = s.offIn := rfl
@[simp] theorem State.withFetchWord_offErr (nbits w : Nat) : (s.withFetchWord nbits w).offErr = s.offErr := rfl
@[simp] theorem State.withFetchWord_offAddr (nbits w : Nat) : (s.withFetchWord nbits w).offAddr = s.offAddr := rfl
@[simp] theorem State.withFetchWord_mem (nbits w : Nat) : (s.withFetchWord nbits w).mem = s.mem := rfl
@[simp] theorem State.withFetchWord_draws (nbits w : Nat) : (s.withFetchWord nbits w).draws = s.draws := rfl

end

end Sys2Proof.Machine
end

