-- ==== Sys2Proof/Laws/Step.lean ====
section
/-! SUPPORT. What each shared operation of a step can do, once, for the proofs to cite. -/

namespace Sys2Proof.Machine

/-- A presentation answers a next state only for exactly two bytes, and then holds their word on `op_in` (R24, R34). -/
theorem presentBytes_next {bytes : List Byte} {s t : State} (h : presentBytes bytes s = .next t) :
    ∃ b0 b1, bytes = [b0, b1] ∧ t = s.presentWord (wordOfBytes b0 b1) := by
  unfold presentBytes at h
  split at h
  · exact ⟨_, _, rfl, by cases h; rfl⟩
  · cases h

/-- A window answers a next state only inside the region, and then holds the window's word on `op_in` (R31). -/
theorem presentWindow_next {a : Nat} {s t : State} (h : presentWindow a s = .next t) :
    a + 1 < Config.regionBytes ∧ t = s.presentWord (s.windowAt a) := by
  unfold presentWindow at h
  split at h
  · rename_i hn
    have := firstOutside?_eq_none.1 hn 1 (by omega)
    exact ⟨this, by cases h; rfl⟩
  · cases h

/-- A window inside the region is always presented, at an even or an odd offset (R33). -/
theorem presentWindow_inside {a : Nat} (s : State) (h : a + 1 < Config.regionBytes) :
    presentWindow a s = .next (s.presentWord (s.windowAt a)) := by
  have : firstOutside? a 2 = none := firstOutside?_eq_none.2 (by intro k hk; omega)
  simp [presentWindow, this]

/-- The constructor call answers a next state only up to 4095 (R57). -/
theorem callFromOffset_next {n : Nat} {s t : State} (h : callFromOffset n s = .next t) :
    n ≤ 4095 ∧ t = s.driveOffIn (offsetOfAddress (BitVec.ofNat 12 n)) := by
  unfold callFromOffset addressFromOffset at h
  by_cases hn : n > 4095
  · simp [hn] at h
  · simp only [hn, if_false] at h
    exact ⟨by omega, by cases h; rfl⟩

/-- A store answers a next state only inside the region (R39). -/
theorem storeInput_next {a : Nat} {b : Byte} {s t : State} (h : storeInput a b s = .next t) :
    a < Config.regionBytes ∧ t = s.storeByte a b := by
  unfold storeInput at h
  split at h
  · rename_i hn
    exact ⟨firstOutside?_eq_none.1 hn 0 (by omega), by cases h; rfl⟩
  · cases h

/-- A load answers a next state only when every byte lands inside the region (R37). -/
theorem loadInput_next {base : Nat} {bytes : List Byte} {s t : State} (h : loadInput base bytes s = .next t) :
    (∀ k, k < bytes.length → base + k < Config.regionBytes) ∧ t = s.loadBytes base bytes := by
  unfold loadInput at h
  split at h
  · rename_i hn
    exact ⟨firstOutside?_eq_none.1 hn, by cases h; rfl⟩
  · cases h

/-- Everything a step can do when it answers a next state: an input is taken, and the block settles. -/
theorem step_next {s s' : State} (h : step s = .next s') :
    ∃ t, takeInput s = .next t ∧ settle t = .next s' := by
  unfold step at h
  split at h
  · exact ⟨_, ‹_›, h⟩
  · cases h
  · cases h

/-- Settling never stops: it runs the decoded instruction or reports the failure (R17). -/
theorem settle_eq (s : State) :
    (∃ i, decodeWord s.opIn = .ok i ∧ settle s = exec i s.extracted) ∨
    (∃ f, decodeWord s.opIn = .fail f ∧ settle s = .next (s.extracted.reportFailure f)) := by
  unfold settle
  cases h : decodeWord s.opIn with
  | ok i => exact .inl ⟨i, rfl, rfl⟩
  | fail f => exact .inr ⟨f, rfl, rfl⟩

end Sys2Proof.Machine
end

