-- ==== Sys2Proof/Certificates/Slice0/Obligations.lean ====
section
/-! DEFINITION. The statements for the provers. A statement that rests on a decision of the spec (D4 tags, D5 zeros, D6
quartet port, D7 group-8 keys, D8 group-F names, D9 group-E pairing, D10, D11, D13) or on a log entry names it. -/

open Sys2Proof Sys2Proof.Machine

/-! ## Nibbles and operands -/

/-- R51: the four nibbles in every form the rule gives, and nothing lost. -/
def Obligations.NibbleExtraction : Prop :=
  ∀ b0 b1 : Byte,
    (extractNibbles b0 b1).n0 = b0.extractLsb' 4 4 ∧ (extractNibbles b0 b1).n1 = b0.extractLsb' 0 4 ∧
    (extractNibbles b0 b1).n2 = b1.extractLsb' 4 4 ∧ (extractNibbles b0 b1).n3 = b1.extractLsb' 0 4 ∧
    (extractNibbles b0 b1).n0 = (wordOfBytes b0 b1).extractLsb' 12 4 ∧
    (extractNibbles b0 b1).n1 = (wordOfBytes b0 b1).extractLsb' 8 4 ∧
    (extractNibbles b0 b1).n2 = (wordOfBytes b0 b1).extractLsb' 4 4 ∧
    (extractNibbles b0 b1).n3 = (wordOfBytes b0 b1).extractLsb' 0 4 ∧
    (extractNibbles b0 b1).n0.setWidth 8 = b0 >>> 4 ∧ (extractNibbles b0 b1).n1.setWidth 8 = b0 &&& 0xF#8 ∧
    (extractNibbles b0 b1).n2.setWidth 8 = b1 >>> 4 ∧ (extractNibbles b0 b1).n3.setWidth 8 = b1 &&& 0xF#8 ∧
    (extractNibbles b0 b1).toWord = wordOfBytes b0 b1 ∧
    extractNibbles 0x81 0x24 = ⟨0x8, 0x1, 0x2, 0x4⟩ ∧ decode 0x12 0x34 = .ok (.jump 0x234)

/-- R53: the address of three nibbles, as shifts, as concatenation and as the word's low 12 bits, unscaled. -/
def Obligations.AddressAssembly : Prop :=
  (∀ n1 n2 n3 : Nibble,
    addressFromNibbles n1 n2 n3 = (n1.setWidth 12 <<< 8) ||| (n2.setWidth 12 <<< 4) ||| n3.setWidth 12 ∧
    addressFromNibbles n1 n2 n3 = n1 ++ n2 ++ n3 ∧
    (addressFromNibbles n1 n2 n3).toNat = 256 * n1.toNat + 16 * n2.toNat + n3.toNat) ∧
  (∀ b0 b1 : Byte,
    addressFromNibbles (extractNibbles b0 b1).n1 (extractNibbles b0 b1).n2 (extractNibbles b0 b1).n3 =
      (wordOfBytes b0 b1).extractLsb' 0 12) ∧
  (∀ a : Address, addressFromNibbles (a.extractLsb' 8 4) (a.extractLsb' 4 4) (a.extractLsb' 0 4) = a) ∧
  decode 0x12 0x34 = .ok (.jump 0x234)

/-- R54: the 8-bit constant of two nibbles is the second byte; the unshifted or of the faulty helper is another value
for every constant with a non-zero high nibble. -/
def Obligations.Const8Assembly : Prop :=
  (∀ n2 n3 : Nibble,
    const8FromNibbles n2 n3 = (n2.setWidth 8 <<< 4) ||| n3.setWidth 8 ∧
    const8FromNibbles n2 n3 = n2 ++ n3 ∧
    (const8FromNibbles n2 n3).toNat = 16 * n2.toNat + n3.toNat ∧
    (n2 ≠ 0#4 → const8FromNibbles n2 n3 ≠ n2.setWidth 8 ||| n3.setWidth 8)) ∧
  (∀ b0 b1 : Byte,
    const8FromNibbles (extractNibbles b0 b1).n2 (extractNibbles b0 b1).n3 = b1 ∧
    const8FromNibbles (extractNibbles b0 b1).n2 (extractNibbles b0 b1).n3 = (wordOfBytes b0 b1).extractLsb' 0 8) ∧
  const8FromNibbles 0xF#4 0xF#4 = 0xFF#8 ∧ (0xF#4).setWidth 8 ||| (0xF#4).setWidth 8 = 0x0F#8 ∧
  decode 0x60 0xFF = .ok (.setConst 0 0xFF)

/-- R55, R56: `Const4` and `Var` are the nibble unchanged; in every variant the first `Var` is made of `n1` and the second
of `n2`. -/
def Obligations.NibbleOperandsUnchanged : Prop :=
  (∀ n : Nibble, const4FromNibble n = n ∧ varFromNibble n = n) ∧
  (∀ v q, (assembleOperands v q).payload.filterMap Operand.var? <+: [varFromNibble q.n1, varFromNibble q.n2])

/-- The three round-trip laws of R70 (T1 to T3): every nibble, address and constant survives splitting and reassembly. -/
def Obligations.OperandRoundTrips : Prop :=
  (∀ n : Nibble, (varFromNibble n).toNat = n.toNat ∧ (const4FromNibble n).toNat = n.toNat) ∧
  (∀ a : Address, addressFromNibbles (a.extractLsb' 8 4) (a.extractLsb' 4 4) (a.extractLsb' 0 4) = a) ∧
  (∀ c : Const8, const8FromNibbles (c.extractLsb' 4 4) (c.extractLsb' 0 4) = c)

/-- R57 (input unsigned, error carrying `n`: D10): the value itself up to 4095, which is also the address of the number's
nibbles; the range error above. -/
def Obligations.AddressFromOffsetBoundary : Prop :=
  (∀ n : Nat, n ≤ 4095 →
    ∃ a, addressFromOffset n = .ok a ∧ a.toNat = n ∧
      a = addressFromNibbles (BitVec.ofNat 4 (n / 256)) (BitVec.ofNat 4 (n / 16)) (BitVec.ofNat 4 n)) ∧
  (∀ n : Nat, 4095 < n → addressFromOffset n = .error { offset := n })

/-- The format table of R52 (the format names are D20): each variant's payload is its format's operands, from its format's
nibbles. -/
def Obligations.PayloadFollowsFormat : Prop :=
  ∀ v q, (assembleOperands v q).variant = v ∧
    (assembleOperands v q).payload =
      match v.format with
      | .z => []
      | .a => [.address (q.n1 ++ q.n2 ++ q.n3)]
      | .xk => [.var q.n1, .const8 (q.n2 ++ q.n3)]
      | .xy => [.var q.n1, .var q.n2]
      | .xyh => [.var q.n1, .var q.n2, .const4 q.n3]
      | .x => [.var q.n1]

/-! ## Decode and encode -/

/-- R69 read from the encoder's side, over all 35 variants (keys and names by D7, D8, D9): decoding the word of a
well-formed instruction gives that instruction, with every operand at every value. -/
def Obligations.DecodeOfEncode : Prop :=
  ∀ i : Instr, i.wellFormed = true → decodeWord (encode i) = .ok i

/-- R69 (keys and names by D7, D8, D9): an accepted word is rebuilt from its instruction, and that instruction is
well-formed. -/
def Obligations.EncodeOfDecode : Prop :=
  ∀ (w : Word) (i : Instr), decodeWord w = .ok i → encode i = w ∧ i.wellFormed = true

/-- R61 (the arms of keys 0x5 to 0x7 by D7, names by D8): the staged decoder is the reference function, whose arms are tried
top to bottom. -/
def Obligations.DecodeIsReference : Prop :=
  ∀ b0 b1 : Byte, decode b0 b1 = decodeReference b0 b1

/-- R72 and R60 (rows by D7, D8, D9): the rows of the opcode table are disjoint, and a word decodes to the variant of its
one row, or fails when it has none. -/
def Obligations.DecodeIsOpcodeTable : Prop :=
  (∀ w : Word, (acceptingVariants w).length ≤ 1) ∧
  (∀ (w : Word) (i : Instr), decodeWord w = .ok i → acceptingVariants w = [i.variant]) ∧
  (∀ (w : Word) (f : DecodeFailure), decodeWord w = .fail f → acceptingVariants w = [])

/-- R17: every two bytes give exactly one of the two cases, and the failure carries the raw quartet. -/
def Obligations.ExactlyOneResult : Prop :=
  ∀ b0 b1 : Byte,
    ((∃ i, decode b0 b1 = .ok i) ∧ ¬ ∃ f, decode b0 b1 = .fail f) ∨
    (decode b0 b1 = .fail (.unrecognized (extractNibbles b0 b1)) ∧ ¬ ∃ i, decode b0 b1 = .ok i)

/-- R100: group 0x0 is keyed on the whole tail; the two fixed patterns win over the fallback, which takes the other 4094
words; no word of the group fails. -/
def Obligations.GroupZeroPriority : Prop :=
  ∀ a : Address,
    decodeWord (0x0#4 ++ a) =
      if a = 0x0EE#12 then .ok .ret
      else if a = 0x0E0#12 then .ok .clearScreen
      else .ok (.callMachineRoutine a)

/-- R58: which nibbles each of the sixteen groups is keyed on. -/
def Obligations.DispatchKeys : Prop :=
  (∀ n1 n2 n3 : Nibble,
    dispatchVariant ⟨0x1, n1, n2, n3⟩ = some .jump ∧ dispatchVariant ⟨0x2, n1, n2, n3⟩ = some .callSubroutine ∧
    dispatchVariant ⟨0x3, n1, n2, n3⟩ = some .skipIfEqualConst ∧
    dispatchVariant ⟨0x4, n1, n2, n3⟩ = some .skipIfNotEqualConst ∧
    dispatchVariant ⟨0x6, n1, n2, n3⟩ = some .setConst ∧ dispatchVariant ⟨0x7, n1, n2, n3⟩ = some .addConst ∧
    dispatchVariant ⟨0xA, n1, n2, n3⟩ = some .setIndex ∧ dispatchVariant ⟨0xB, n1, n2, n3⟩ = some .jumpWithOffset ∧
    dispatchVariant ⟨0xC, n1, n2, n3⟩ = some .random ∧ dispatchVariant ⟨0xD, n1, n2, n3⟩ = some .draw) ∧
  (∀ n1 n2 n3 : Nibble,
    dispatchVariant ⟨0x5, n1, n2, n3⟩ = (if n3 = 0x0#4 then some .skipIfEqual else none) ∧
    dispatchVariant ⟨0x9, n1, n2, n3⟩ = (if n3 = 0x0#4 then some .skipIfNotEqual else none)) ∧
  (∀ n0 n1 m1 n2 n3 : Nibble, n0 ≠ 0x0#4 → dispatchVariant ⟨n0, n1, n2, n3⟩ = dispatchVariant ⟨n0, m1, n2, n3⟩) ∧
  (∃ n1 m1 n2 n3 : Nibble, dispatchVariant ⟨0x0, n1, n2, n3⟩ ≠ dispatchVariant ⟨0x0, m1, n2, n3⟩) ∧
  (∀ n1 m1 n2 m2 n3 : Nibble, dispatchVariant ⟨0x8, n1, n2, n3⟩ = dispatchVariant ⟨0x8, m1, m2, n3⟩) ∧
  (∀ n0 : Nibble, n0 = 0x0#4 ∨ n0 = 0x8#4 ∨ n0 = 0xE#4 ∨ n0 = 0xF#4 →
    ∃ v u n1 n2 n3 m1 m2 m3, v ≠ u ∧ dispatchVariant ⟨n0, n1, n2, n3⟩ = some v ∧
      dispatchVariant ⟨n0, m1, m2, m3⟩ = some u)

/-- R111's map `G8_MAP` (the keys 0x5, 0x6, 0x7 are the spec's decision D7): nine keys decode with both registers in order,
the other seven fail. -/
def Obligations.GroupEightMap : Prop :=
  ∀ x y : Var,
    decodeWord (0x8#4 ++ x ++ y ++ 0x0#4) = .ok (.set x y) ∧
    decodeWord (0x8#4 ++ x ++ y ++ 0x1#4) = .ok (.or x y) ∧
    decodeWord (0x8#4 ++ x ++ y ++ 0x2#4) = .ok (.and x y) ∧
    decodeWord (0x8#4 ++ x ++ y ++ 0x3#4) = .ok (.xor x y) ∧
    decodeWord (0x8#4 ++ x ++ y ++ 0x4#4) = .ok (.addReg x y) ∧
    decodeWord (0x8#4 ++ x ++ y ++ 0x5#4) = .ok (.subReg x y) ∧
    decodeWord (0x8#4 ++ x ++ y ++ 0x6#4) = .ok (.shiftRight x y) ∧
    decodeWord (0x8#4 ++ x ++ y ++ 0x7#4) = .ok (.subRegReverse x y) ∧
    decodeWord (0x8#4 ++ x ++ y ++ 0xE#4) = .ok (.shiftLeft x y) ∧
    ∀ h ∈ [0x8#4, 0x9#4, 0xA#4, 0xB#4, 0xC#4, 0xD#4, 0xF#4],
      decodeWord (0x8#4 ++ x ++ y ++ h) = .fail (.unrecognized ⟨0x8, x, y, h⟩)

/-- R126 and R129 (the pairing of group 0xE by D9, the names of group 0xF by D8): the tails that decode, each to its own
variant; every other tail fails. -/
def Obligations.TailKeyedGroups : Prop :=
  ∀ x : Var,
    decodeWord (0xE#4 ++ x ++ 0x9E#8) = .ok (.keyPressed x) ∧
    decodeWord (0xE#4 ++ x ++ 0xA1#8) = .ok (.keyNotPressed x) ∧
    decodeWord (0xF#4 ++ x ++ 0x07#8) = .ok (.getDelayTimer x) ∧
    decodeWord (0xF#4 ++ x ++ 0x0A#8) = .ok (.waitForKey x) ∧
    decodeWord (0xF#4 ++ x ++ 0x15#8) = .ok (.setDelayTimer x) ∧
    decodeWord (0xF#4 ++ x ++ 0x18#8) = .ok (.setSoundTimer x) ∧
    decodeWord (0xF#4 ++ x ++ 0x1E#8) = .ok (.addToIndex x) ∧
    decodeWord (0xF#4 ++ x ++ 0x29#8) = .ok (.setIndexToSprite x) ∧
    decodeWord (0xF#4 ++ x ++ 0x33#8) = .ok (.storeBcd x) ∧
    decodeWord (0xF#4 ++ x ++ 0x55#8) = .ok (.storeRegisters x) ∧
    decodeWord (0xF#4 ++ x ++ 0x65#8) = .ok (.loadRegisters x) ∧
    (∀ n2 n3 : Nibble, n2 ++ n3 ≠ 0x9E#8 → n2 ++ n3 ≠ 0xA1#8 →
      decodeWord (0xE#4 ++ x ++ n2 ++ n3) = .fail (.unrecognized ⟨0xE, x, n2, n3⟩)) ∧
    (∀ n2 n3 : Nibble, n2 ++ n3 ∉ [0x07#8, 0x0A#8, 0x15#8, 0x18#8, 0x1E#8, 0x29#8, 0x33#8, 0x55#8, 0x65#8] →
      decodeWord (0xF#4 ++ x ++ n2 ++ n3) = .fail (.unrecognized ⟨0xF, x, n2, n3⟩))

/-- R63 (derived by the spec from R58 to R61; case (b) rests on D7): exactly these words fail. -/
def Obligations.FailingWords : Prop :=
  ∀ w : Word, (∃ f, decodeWord w = .fail f) ↔
    (w.extractLsb' 12 4 = 0x5#4 ∧ w.extractLsb' 0 4 ≠ 0x0#4) ∨
    (w.extractLsb' 12 4 = 0x8#4 ∧ w.extractLsb' 0 4 ∈ [0x8#4, 0x9#4, 0xA#4, 0xB#4, 0xC#4, 0xD#4, 0xF#4]) ∨
    (w.extractLsb' 12 4 = 0x9#4 ∧ w.extractLsb' 0 4 ≠ 0x0#4) ∨
    (w.extractLsb' 12 4 = 0xE#4 ∧ w.extractLsb' 0 8 ∉ [0x9E#8, 0xA1#8]) ∨
    (w.extractLsb' 12 4 = 0xF#4 ∧
      w.extractLsb' 0 8 ∉ [0x07#8, 0x0A#8, 0x15#8, 0x18#8, 0x1E#8, 0x29#8, 0x33#8, 0x55#8, 0x65#8])

/-- R153 (the rows by D7, D8, D9): a word no row matches gives the failure and no instruction; in particular the failing
tails of groups 0x5, 0x9 and 0x8 are no variant of their groups. -/
def Obligations.NoFallback : Prop :=
  (∀ w : Word, acceptingVariants w = [] →
    decodeWord w = .fail (.unrecognized (extractNibbles (firstByte w) (secondByte w)))) ∧
  (∀ x y h : Nibble, h ≠ 0x0#4 →
    decodeWord (0x5#4 ++ x ++ y ++ h) = .fail (.unrecognized ⟨0x5, x, y, h⟩) ∧
    decodeWord (0x9#4 ++ x ++ y ++ h) = .fail (.unrecognized ⟨0x9, x, y, h⟩)) ∧
  (∀ x y h : Nibble, h ∈ [0x8#4, 0x9#4, 0xA#4, 0xB#4, 0xC#4, 0xD#4, 0xF#4] →
    decodeWord (0x8#4 ++ x ++ y ++ h) = .fail (.unrecognized ⟨0x8, x, y, h⟩))

/-- R34 (refusing at the boundary is D11): a sequence of any length but two has no result at all, and in particular no
failure result. -/
def Obligations.WrongLengthHasNoResult : Prop :=
  (∀ bs : List Byte, decodeBytes bs = none ↔ bs.length ≠ 2) ∧
  (∀ b0 b1 : Byte, decodeBytes [b0, b1] = some (decode b0 b1)) ∧
  (∀ (s : State) (bs : List Byte) (rest : List Input), bs.length ≠ 2 → s.inputs = .present bs :: rest →
    step s = .refused (.inputNotTwoBytes bs.length))

/-- The seven scenarios of the spec's section 1.1 (S1 to S7), by decoding the words the spec prints. -/
def Obligations.SourceScenarios : Prop :=
  decode 0x00 0xE0 = .ok .clearScreen ∧ decode 0x00 0xEE = .ok .ret ∧
  decode 0x12 0x34 = .ok (.jump 0x234) ∧ decode 0x60 0xFF = .ok (.setConst 0 0xFF) ∧
  decode 0x81 0x24 = .ok (.addReg 1 2) ∧ decode 0xD1 0x2F = .ok (.draw 1 2 0xF) ∧
  decode 0xFF 0xFF = .fail (.unrecognized ⟨0xF, 0xF, 0xF, 0xF⟩)

/-! ## Instructions: result and completion. Tags by D4, absent operands zero by D5; the next state is written out whole, so
each statement is its instructions' frame as well. -/

/-- R101, R102: the two variants without operands. -/
def Obligations.NoOperandInstructions : Prop :=
  ∀ s : State,
    exec .ret s = .next { s with out := ⟨s.out.quartet, true, 0, 0, 0, 0, 0, 0⟩ } ∧
    exec .clearScreen s = .next { s with out := ⟨s.out.quartet, true, 1, 0, 0, 0, 0, 0⟩ }

/-- R103, R104, R105, R122, R123: the five variants that carry an address, odd or even, unscaled. -/
def Obligations.AddressInstructions : Prop :=
  ∀ (a : Address) (s : State),
    exec (.callMachineRoutine a) s = .next { s with out := ⟨s.out.quartet, true, 2, 0, 0, a, 0, 0⟩ } ∧
    exec (.jump a) s = .next { s with out := ⟨s.out.quartet, true, 3, 0, 0, a, 0, 0⟩ } ∧
    exec (.callSubroutine a) s = .next { s with out := ⟨s.out.quartet, true, 4, 0, 0, a, 0, 0⟩ } ∧
    exec (.setIndex a) s = .next { s with out := ⟨s.out.quartet, true, 20, 0, 0, a, 0, 0⟩ } ∧
    exec (.jumpWithOffset a) s = .next { s with out := ⟨s.out.quartet, true, 21, 0, 0, a, 0, 0⟩ }

/-- R106, R107, R109, R110, R124: the five variants that carry a register index and a constant. -/
def Obligations.RegisterConstantInstructions : Prop :=
  ∀ (x : Var) (k : Const8) (s : State),
    exec (.skipIfEqualConst x k) s = .next { s with out := ⟨s.out.quartet, true, 5, x, 0, 0, k, 0⟩ } ∧
    exec (.skipIfNotEqualConst x k) s = .next { s with out := ⟨s.out.quartet, true, 6, x, 0, 0, k, 0⟩ } ∧
    exec (.setConst x k) s = .next { s with out := ⟨s.out.quartet, true, 8, x, 0, 0, k, 0⟩ } ∧
    exec (.addConst x k) s = .next { s with out := ⟨s.out.quartet, true, 9, x, 0, 0, k, 0⟩ } ∧
    exec (.random x k) s = .next { s with out := ⟨s.out.quartet, true, 22, x, 0, 0, k, 0⟩ }

/-- R108, R121: the two register-pair skips. -/
def Obligations.RegisterPairSkips : Prop :=
  ∀ (x y : Var) (s : State),
    exec (.skipIfEqual x y) s = .next { s with out := ⟨s.out.quartet, true, 7, x, y, 0, 0, 0⟩ } ∧
    exec (.skipIfNotEqual x y) s = .next { s with out := ⟨s.out.quartet, true, 19, x, y, 0, 0, 0⟩ }

/-- R112 to R120: the nine variants of group 0x8; both register indices are delivered, in order. -/
def Obligations.GroupEightInstructions : Prop :=
  ∀ (x y : Var) (s : State),
    exec (.set x y) s = .next { s with out := ⟨s.out.quartet, true, 10, x, y, 0, 0, 0⟩ } ∧
    exec (.or x y) s = .next { s with out := ⟨s.out.quartet, true, 11, x, y, 0, 0, 0⟩ } ∧
    exec (.and x y) s = .next { s with out := ⟨s.out.quartet, true, 12, x, y, 0, 0, 0⟩ } ∧
    exec (.xor x y) s = .next { s with out := ⟨s.out.quartet, true, 13, x, y, 0, 0, 0⟩ } ∧
    exec (.addReg x y) s = .next { s with out := ⟨s.out.quartet, true, 14, x, y, 0, 0, 0⟩ } ∧
    exec (.subReg x y) s = .next { s with out := ⟨s.out.quartet, true, 15, x, y, 0, 0, 0⟩ } ∧
    exec (.shiftRight x y) s = .next { s with out := ⟨s.out.quartet, true, 16, x, y, 0, 0, 0⟩ } ∧
    exec (.subRegReverse x y) s = .next { s with out := ⟨s.out.quartet, true, 17, x, y, 0, 0, 0⟩ } ∧
    exec (.shiftLeft x y) s = .next { s with out := ⟨s.out.quartet, true, 18, x, y, 0, 0, 0⟩ }

/-- R125: `Draw`, the one variant with three operands; a height of zero is no special case. -/
def Obligations.DrawInstruction : Prop :=
  ∀ (x y : Var) (h : Const4) (s : State),
    exec (.draw x y h) s = .next { s with out := ⟨s.out.quartet, true, 23, x, y, 0, 0, h⟩ }

/-- R127, R128: the two variants of group 0xE. -/
def Obligations.KeyInstructions : Prop :=
  ∀ (x : Var) (s : State),
    exec (.keyPressed x) s = .next { s with out := ⟨s.out.quartet, true, 24, x, 0, 0, 0, 0⟩ } ∧
    exec (.keyNotPressed x) s = .next { s with out := ⟨s.out.quartet, true, 25, x, 0, 0, 0, 0⟩ }

/-- R130 to R138: the nine variants of group 0xF. -/
def Obligations.GroupFInstructions : Prop :=
  ∀ (x : Var) (s : State),
    exec (.getDelayTimer x) s = .next { s with out := ⟨s.out.quartet, true, 26, x, 0, 0, 0, 0⟩ } ∧
    exec (.waitForKey x) s = .next { s with out := ⟨s.out.quartet, true, 27, x, 0, 0, 0, 0⟩ } ∧
    exec (.setDelayTimer x) s = .next { s with out := ⟨s.out.quartet, true, 28, x, 0, 0, 0, 0⟩ } ∧
    exec (.setSoundTimer x) s = .next { s with out := ⟨s.out.quartet, true, 29, x, 0, 0, 0, 0⟩ } ∧
    exec (.addToIndex x) s = .next { s with out := ⟨s.out.quartet, true, 30, x, 0, 0, 0, 0⟩ } ∧
    exec (.setIndexToSprite x) s = .next { s with out := ⟨s.out.quartet, true, 31, x, 0, 0, 0, 0⟩ } ∧
    exec (.storeBcd x) s = .next { s with out := ⟨s.out.quartet, true, 32, x, 0, 0, 0, 0⟩ } ∧
    exec (.storeRegisters x) s = .next { s with out := ⟨s.out.quartet, true, 33, x, 0, 0, 0, 0⟩ } ∧
    exec (.loadRegisters x) s = .next { s with out := ⟨s.out.quartet, true, 34, x, 0, 0, 0, 0⟩ }

/-- "State written: none. Flags written: none" (R101 to R138): whatever instruction is decoded, only the result ports move;
every byte of the region reads as before. -/
def Obligations.DecodingWritesOnlyPorts : Prop :=
  ∀ (i : Instr) (s t : State), exec i s = .next t →
    (∀ a, t.byteAt a = s.byteAt a) ∧ t.mem = s.mem ∧ t.opIn = s.opIn ∧ t.offIn = s.offIn ∧ t.offErr = s.offErr ∧
    t.offAddr = s.offAddr ∧ t.inputs = s.inputs ∧ t.draws = s.draws ∧ t.out.quartet = s.out.quartet

/-- The 35 meanings against the table under R68 (tags D4, zeros D5, quartet port D6): with its own word's quartet on the
port, each well-formed instruction drives exactly the port image of its word. -/
def Obligations.MeaningsDriveThePortImage : Prop :=
  ∀ (i : Instr) (s : State), i.wellFormed = true → s.out.quartet = encode i →
    exec i s = .next { s with out := portImage (encode i) }

/-! ## The step -/

/-- A step runs the decoded instruction: whatever input brought the word (R17, R24, R31), in the state where the quartet is
extracted and the offset path has settled (log entry 1). -/
def Obligations.StepRunsDecodedInstruction : Prop :=
  (∀ (s t : State) (i : Instr), takeInput s = .next t → decodeWord t.opIn = .ok i → step s = exec i t.extracted) ∧
  (∀ (s : State) (b0 b1 : Byte) (rest : List Input) (i : Instr),
    s.inputs = .present [b0, b1] :: rest → decode b0 b1 = .ok i →
    step s = exec i ((s.setInputs rest).presentWord (wordOfBytes b0 b1)).extracted) ∧
  (∀ (s : State) (a : Nat) (rest : List Input) (i : Instr),
    s.inputs = .window a :: rest → a + 1 < Config.regionBytes → decode (s.byteAt a) (s.byteAt (a + 1)) = .ok i →
    step s = exec i ((s.setInputs rest).presentWord (s.windowAt a)).extracted)

/-- R151 on the ports (D4, D5, D6): a failing word is answered by `ok = 0`, `tag = 63`, zero operands and its own quartet, and
touches nothing else. -/
def Obligations.StepReportsDecodeFailure : Prop :=
  ∀ (s t : State) (f : DecodeFailure), takeInput s = .next t → decodeWord t.opIn = .fail f →
    f = .unrecognized (extractNibbles (firstByte t.opIn) (secondByte t.opIn)) ∧
    ∃ u, step s = .next u ∧ u.out = ⟨t.opIn, false, 63, 0, 0, 0, 0, 0⟩ ∧
      u.opIn = t.opIn ∧ u.offIn = t.offIn ∧ u.mem = t.mem ∧ u.inputs = t.inputs ∧ ∀ a, u.byteAt a = t.byteAt a

/-- R152: a decode failure is a result: the machine goes on, and the next word is decoded exactly as if the failure had not
happened. -/
def Obligations.FailureIsAResult : Prop :=
  ∀ (s : State) (b0 b1 c0 c1 : Byte) (rest : List Input) (f : DecodeFailure),
    s.inputs = .present [b0, b1] :: .present [c0, c1] :: rest → decode b0 b1 = .fail f →
    ∃ t u v, step s = .next t ∧ step t = .next u ∧
      step (s.setInputs (.present [c0, c1] :: rest)) = .next v ∧
      u.out = v.out ∧ u.opIn = v.opIn ∧ u.mem = v.mem ∧ u.inputs = v.inputs ∧ u.offErr = v.offErr

/-- R10 and R23 with R25 to R27 (ports D2 to D6, D10): after every step, from any state at all, every result port is the
function of `op_in` and the offset ports follow `off_in`. -/
def Obligations.OutputsFollowInputs : Prop :=
  ∀ s t : State, step s = .next t → t.DecodeSettled ∧ t.OffsetSettled

/-- The invariant of the machine (R10, R30; the ports by D2 to D6): every step keeps it. -/
def Obligations.StepKeepsInvariant : Prop :=
  ∀ s t : State, s.Inv → step s = .next t → t.Inv

/-- The invariant holds at reset (R23, R170; the input ports' zeros are log entry 3). -/
def Obligations.ResetMeetsInvariant : Prop := State.reset.Inv

/-- R10, R18, R42: the result is determined by the two bytes presented and by nothing before, after or beside them: any two
states, any two steps that end with the same `op_in`. -/
def Obligations.ResultDependsOnlyOnTheWord : Prop :=
  (∀ s t s' t' : State, step s = .next s' → step t = .next t' → s'.opIn = t'.opIn → s'.out = t'.out) ∧
  (∀ (s : State) (b0 b1 : Byte) (rest : List Input), s.inputs = .present [b0, b1] :: rest →
    ∃ s', step s = .next s' ∧ s'.opIn = wordOfBytes b0 b1)

/-- R157 and R17 read at the ports (D4): presenting any two bytes completes, and the ports carry exactly their result. -/
def Obligations.PresentedBytesReturnTheirResult : Prop :=
  ∀ (s : State) (b0 b1 : Byte) (rest : List Input), s.inputs = .present [b0, b1] :: rest →
    ∃ t, step s = .next t ∧ t.out.result? = some (decode b0 b1) ∧ t.out.quartet = wordOfBytes b0 b1 ∧
      t.opIn = wordOfBytes b0 b1 ∧ t.mem = s.mem ∧ t.inputs = rest

/-- R25's "is a function and is injective" (D2, D4, D5): the result can be read back from the ports of every word; and R69's
corollary: with `ok = 1` the quartet port adds nothing to the others. -/
def Obligations.PortsCarryTheResult : Prop :=
  (∀ w : Word, (portImage w).result? = some (decodeWord w)) ∧
  (∀ w u : Word, (portImage w).ok = true →
    { portImage w with quartet := 0#16 } = { portImage u with quartet := 0#16 } → w = u)

/-- R68 (D4): after every step the tag is a variant's beside `ok = 1`, and 63 with every operand output zero beside `ok = 0`;
35 to 62 never appear. -/
def Obligations.TagsThatAppear : Prop :=
  ∀ s t : State, step s = .next t →
    (t.out.ok = true ∧ t.out.tag.toNat ≤ 34) ∨
    (t.out.ok = false ∧ t.out.tag = 63 ∧ t.out.vx = 0 ∧ t.out.vy = 0 ∧ t.out.addr = 0 ∧ t.out.k8 = 0 ∧ t.out.k4 = 0)

/-- R35: decoding a window reads its two bytes and nothing beyond, writes no byte, and is idempotent. -/
def Obligations.DecodeTouchesNothing : Prop :=
  (∀ (s : State) (a : Nat) (rest : List Input), s.inputs = .window a :: .window a :: rest →
    a + 1 < Config.regionBytes →
    ∃ t u, step s = .next t ∧ step t = .next u ∧ u.out = t.out ∧ u.opIn = t.opIn ∧
      t.offIn = s.offIn ∧ u.offIn = s.offIn ∧ u.inputs = rest ∧ ∀ d, t.byteAt d = s.byteAt d ∧ u.byteAt d = s.byteAt d) ∧
  (∀ (s r s' r' : State) (a : Nat) (srest rrest : List Input),
    s.inputs = .window a :: srest → r.inputs = .window a :: rrest →
    s.byteAt a = r.byteAt a → s.byteAt (a + 1) = r.byteAt (a + 1) →
    step s = .next s' → step r = .next r' → s'.out = r'.out)

/-- Waiting changes nothing: in a state that meets the invariant, with nothing presented and no offset error, a step is the
identity (R10, R18; log entry 1). -/
def Obligations.IdleStepIsIdentity : Prop :=
  ∀ s : State, s.Inv → s.inputs = [] → s.offErr = false → step s = .next s

/-! ## The surroundings -/

/-- R32: the word is big-endian, the lower offset more significant; nothing switches it; both worked examples. -/
def Obligations.BigEndianWindow : Prop :=
  (∀ b0 b1 : Byte,
    wordOfBytes b0 b1 = (b0.setWidth 16 <<< 8) ||| b1.setWidth 16 ∧
    (wordOfBytes b0 b1).toNat = 256 * b0.toNat + b1.toNat) ∧
  (∀ (s t : State) (a : Nat) (rest : List Input), s.inputs = .window a :: rest → step s = .next t →
    t.opIn.toNat = 256 * (s.byteAt a).toNat + (s.byteAt (a + 1)).toNat) ∧
  decode 0x12 0x34 = .ok (.jump 0x234) ∧ extractNibbles 0x81 0x24 = ⟨0x8, 0x1, 0x2, 0x4⟩

/-- R31, R33 (the block cannot check, D13): a window at any offset inside the region, even or odd, is decoded as its two bytes
presented directly. -/
def Obligations.WindowIsItsTwoBytes : Prop :=
  ∀ (s : State) (a : Nat) (rest : List Input), s.inputs = .window a :: rest → a + 1 < Config.regionBytes →
    step s = step (s.setInputs (.present [s.byteAt a, s.byteAt (a + 1)] :: rest)) ∧
    ∃ t, step s = .next t ∧ t.opIn = s.windowAt a

/-- R39, R41 (sequential owner, D24): after a store, the stored byte reads back and every other byte reads as before; the
outputs keep their values in a settled state. -/
def Obligations.StoreWritesOneByte : Prop :=
  ∀ (s : State) (a : Nat) (b : Byte) (rest : List Input), s.inputs = .store a b :: rest → a < Config.regionBytes →
    ∃ t, step s = .next t ∧ t.byteAt a = b ∧ (∀ d, d ≠ a → t.byteAt d = s.byteAt d) ∧
      t.opIn = s.opIn ∧ t.offIn = s.offIn ∧ t.inputs = rest ∧ (s.DecodeSettled → t.out = s.out)

/-- R39, R41 (D24): a window cut after a store is decoded with the stored byte; nothing in the block is stale. -/
def Obligations.WindowSeesStore : Prop :=
  ∀ (s : State) (a c : Nat) (b : Byte) (rest : List Input), s.inputs = .store a b :: .window c :: rest →
    a < Config.regionBytes → c + 1 < Config.regionBytes →
    ∃ t u, step s = .next t ∧ step t = .next u ∧
      u.out.result? = some (decode (if c = a then b else s.byteAt c) (if c + 1 = a then b else s.byteAt (c + 1)))

/-- R37, R172 (base a parameter, D14): a load places its bytes at rising offsets from the base and leaves every other byte. -/
def Obligations.LoadPlacesProgram : Prop :=
  ∀ (s : State) (base : Nat) (bytes : List Byte) (rest : List Input), s.inputs = .loadRom base bytes :: rest →
    base + bytes.length ≤ Config.regionBytes →
    ∃ t, step s = .next t ∧ (∀ k (h : k < bytes.length), t.byteAt (base + k) = bytes[k]) ∧
      (∀ a, a < base ∨ base + bytes.length ≤ a → t.byteAt a = s.byteAt a) ∧
      t.opIn = s.opIn ∧ t.offIn = s.offIn ∧ t.inputs = rest

/-- R37, R172, R33 (D14, D13): every window of a loaded program, even or odd, decodes to the result of its two program bytes,
wherever the program was loaded. -/
def Obligations.LoadedProgramDecodes : Prop :=
  ∀ (s : State) (base k : Nat) (bytes : List Byte) (rest : List Input) (h : k + 1 < bytes.length),
    s.inputs = .loadRom base bytes :: .window (base + k) :: rest → base + bytes.length ≤ Config.regionBytes →
    ∃ t u, step s = .next t ∧ step t = .next u ∧
      u.out.result? = some (decode (bytes[k]'(by omega)) (bytes[k + 1]'h))

/-- R150: two error kinds only: no instruction stops the machine, a failing word's only result is `Unrecognized`, and the one
fault of a step is the range error, raised by the constructor call above 4095 and by nothing else. -/
def Obligations.TwoErrorKindsOnly : Prop :=
  (∀ (i : Instr) (s : State), ∃ t, exec i s = .next t) ∧
  (∀ (b0 b1 : Byte) (f : DecodeFailure), decode b0 b1 = .fail f → ∃ q, f = .unrecognized q) ∧
  (∀ (s : State) (f : Fault), step s = .fault f →
    ∃ n m rest, s.inputs = .callOffset n :: rest ∧ 4095 < n ∧ f = .constructionRangeError m) ∧
  (∀ (s : State) (n : Nat) (rest : List Input), s.inputs = .callOffset n :: rest → 4095 < n →
    ∃ f, step s = .fault f)

/-- The constructor call gives its address up to 4095 and faults above, R57 and R154 (the error carries `n`: D10). That the
call's result stands on the offset ports, `off_err = 0` and `off_addr = n`, is the model's own choice (log entry 17): R57
does not say where it stands. -/
def Obligations.OffsetCall : Prop :=
  ∀ (s : State) (n : Nat) (rest : List Input), s.inputs = .callOffset n :: rest →
    (n ≤ 4095 → ∃ t, step s = .next t ∧ t.offErr = false ∧ t.offAddr.toNat = n ∧ t.mem = s.mem ∧ t.opIn = s.opIn) ∧
    (4095 < n → step s = .fault (.constructionRangeError n))

/-- R27 (D10): driving `off_in` always completes; `off_err` is the comparison with 4095, `off_addr` the low 12 bits while it is
0, and the decode path does not notice. -/
def Obligations.OffsetPorts : Prop :=
  ∀ (s : State) (n : BitVec Config.offsetBits) (rest : List Input), s.inputs = .driveOffset n :: rest →
    ∃ t, step s = .next t ∧ (t.offErr = true ↔ 4095 < n.toNat) ∧ (n.toNat ≤ 4095 → t.offAddr = n.extractLsb' 0 12) ∧
      t.offIn = n ∧ t.opIn = s.opIn ∧ t.mem = s.mem ∧ t.inputs = rest ∧ (s.DecodeSettled → t.out = s.out)

/-- What the boundary refuses: only a byte sequence of another length than two (R34, D11), or an access that leaves the region
(the model's own choice, log entry 8: D13 leaves such an access to the collaborator); never an instruction. -/
def Obligations.RefusalsAreTheBoundarys : Prop :=
  ∀ (s : State) (r : Refusal), step s = .refused r →
    (∃ bs rest, s.inputs = .present bs :: rest ∧ bs.length ≠ 2 ∧ r = .inputNotTwoBytes bs.length) ∨
    (∃ a d rest, s.inputs = .window a :: rest ∧ (d = a ∨ d = a + 1) ∧ Config.regionBytes ≤ d ∧ r = .outsideRegion d) ∨
    (∃ a b rest, s.inputs = .store a b :: rest ∧ Config.regionBytes ≤ a ∧ r = .outsideRegion a) ∨
    (∃ base bs d rest, s.inputs = .loadRom base bs :: rest ∧ base ≤ d ∧ d < base + bs.length ∧
      Config.regionBytes ≤ d ∧ r = .outsideRegion d)

/-- R176, R153, R158 (policy a parameter, D12): a consumer that tests `ok` first hands over exactly the decoded instruction,
and on a failure follows its policy and executes nothing. -/
def Obligations.ConsumerExecutesOnlyInstructions : Prop :=
  (∀ (p : Config.FailPolicy) (w : Word) (i : Instr),
    consume p (portImage w) = some (.execute i) ↔ decodeWord w = .ok i) ∧
  (∀ (p : Config.FailPolicy) (w : Word) (q : Quartet), decodeWord w = .fail (.unrecognized q) →
    consume p (portImage w) =
      some (match p with | .skip => .skip | .logAndSkip => .logAndSkip q | .halt => .halt))

/-- The other direction for accesses, the model's own choice (log entry 8: D13 leaves them to the collaborator): a window, a
store and a non-empty load that leave the region are refused at their first offset outside. -/
def Obligations.AccessOutsideIsRefused : Prop :=
  (∀ (s : State) (a : Nat) (rest : List Input), s.inputs = .window a :: rest → Config.regionBytes ≤ a + 1 →
    step s = .refused (.outsideRegion (if Config.regionBytes ≤ a then a else a + 1))) ∧
  (∀ (s : State) (a : Nat) (b : Byte) (rest : List Input), s.inputs = .store a b :: rest → Config.regionBytes ≤ a →
    step s = .refused (.outsideRegion a)) ∧
  (∀ (s : State) (base : Nat) (bytes : List Byte) (rest : List Input), s.inputs = .loadRom base bytes :: rest →
    bytes ≠ [] → Config.regionBytes < base + bytes.length →
    step s = .refused (.outsideRegion (max base Config.regionBytes)))
end

