-- ==== Sys2Proof/Laws/Decode.lean ====
section
/-! SUPPORT. The small lemmas of the decoder's first stage: bytes and words, nibbles of a word put together from fields. -/

namespace Sys2Proof

/-- The sixteen nibbles, for a case split on a dispatch key. -/
theorem Nibble.cases (n : Nibble) :
    n = 0x0#4 ∨ n = 0x1#4 ∨ n = 0x2#4 ∨ n = 0x3#4 ∨ n = 0x4#4 ∨ n = 0x5#4 ∨ n = 0x6#4 ∨ n = 0x7#4 ∨
    n = 0x8#4 ∨ n = 0x9#4 ∨ n = 0xA#4 ∨ n = 0xB#4 ∨ n = 0xC#4 ∨ n = 0xD#4 ∨ n = 0xE#4 ∨ n = 0xF#4 := by
  decide +revert

/-- The first byte of a word is the one put first (R32). -/
@[simp] theorem firstByte_wordOfBytes (b0 b1 : Byte) : firstByte (wordOfBytes b0 b1) = b0 := by
  refine BitVec.eq_of_getLsbD_eq fun i hi => ?_
  simp only [firstByte, wordOfBytes, BitVec.getLsbD_extractLsb', BitVec.getLsbD_append]
  interval_cases i <;> simp

/-- The second byte of a word is the one put second (R32). -/
@[simp] theorem secondByte_wordOfBytes (b0 b1 : Byte) : secondByte (wordOfBytes b0 b1) = b1 := by
  refine BitVec.eq_of_getLsbD_eq fun i hi => ?_
  simp only [secondByte, wordOfBytes, BitVec.getLsbD_extractLsb', BitVec.getLsbD_append]
  interval_cases i <;> simp

/-- A word is its two bytes in order (R32). -/
@[simp] theorem wordOfBytes_bytes (w : Word) : wordOfBytes (firstByte w) (secondByte w) = w := by
  refine BitVec.eq_of_getLsbD_eq fun i hi => ?_
  simp only [firstByte, secondByte, wordOfBytes, BitVec.getLsbD_extractLsb', BitVec.getLsbD_append]
  interval_cases i <;> simp

/-- Decoding the word of two bytes is decoding the two bytes (R24). -/
@[simp] theorem decodeWord_wordOfBytes (b0 b1 : Byte) : decodeWord (wordOfBytes b0 b1) = decode b0 b1 := by
  simp [decodeWord]

/-- The quartet of a word, field by field (R51). -/
theorem extractNibbles_bytes (w : Word) :
    extractNibbles (firstByte w) (secondByte w) =
      ⟨w.extractLsb' 12 4, w.extractLsb' 8 4, w.extractLsb' 4 4, w.extractLsb' 0 4⟩ := by
  simp only [extractNibbles, Quartet.mk.injEq]
  refine ⟨?_, ?_, ?_, ?_⟩ <;>
  · refine BitVec.eq_of_getLsbD_eq fun i hi => ?_
    simp only [firstByte, secondByte, BitVec.getLsbD_extractLsb']
    interval_cases i <;> simp

/-- Splitting the word put together from a quartet gives the quartet back (R51). -/
theorem extractNibbles_toWord (q : Quartet) : extractNibbles (firstByte q.toWord) (secondByte q.toWord) = q := by
  obtain ⟨n0, n1, n2, n3⟩ := q
  simp only [extractNibbles_bytes, Quartet.mk.injEq]
  refine ⟨?_, ?_, ?_, ?_⟩ <;>
  · refine BitVec.eq_of_getLsbD_eq fun i hi => ?_
    simp only [Quartet.toWord, BitVec.getLsbD_extractLsb', BitVec.getLsbD_append]
    interval_cases i <;> simp

/-- Decoding a word put together from a quartet is decoding the quartet (R51, R60). -/
theorem decodeWord_toWord (q : Quartet) : decodeWord q.toWord = decodeQuartet q := by
  simp only [decodeWord, decode, extractNibbles_toWord]

end Sys2Proof
end

