-- ==== Sys2Proof/Laws/PerInstr.lean ====
section
/-! SUPPORT. Per-instruction facts about the encoding, one lemma per constructor. -/

namespace Sys2Proof.Laws

/-- The row of opcode_table.json at the instruction's tag is the row of its variant, and the encoded word carries that
row's fixed digits (R68, R72). -/
def RowOfEncoding.Statement (i : Instr) : Prop :=
  ∃ r, opcodeTable[i.variant.tag.toNat]? = some r ∧ r.variant = i.variant ∧ encode i &&& r.mask = r.pattern

theorem RowOfEncoding.ret : RowOfEncoding.Statement .ret :=
  ⟨_, rfl, rfl, by decide⟩

theorem RowOfEncoding.clearScreen : RowOfEncoding.Statement .clearScreen :=
  ⟨_, rfl, rfl, by decide⟩

theorem RowOfEncoding.callMachineRoutine (a : Address) : RowOfEncoding.Statement (.callMachineRoutine a) :=
  ⟨_, rfl, rfl, by
    refine BitVec.eq_of_getLsbD_eq fun i hi => ?_
    simp only [encode, BitVec.getLsbD_and, BitVec.getLsbD_append]
    interval_cases i <;> simp⟩

theorem RowOfEncoding.jump (a : Address) : RowOfEncoding.Statement (.jump a) :=
  ⟨_, rfl, rfl, by
    refine BitVec.eq_of_getLsbD_eq fun i hi => ?_
    simp only [encode, BitVec.getLsbD_and, BitVec.getLsbD_append]
    interval_cases i <;> simp⟩

theorem RowOfEncoding.callSubroutine (a : Address) : RowOfEncoding.Statement (.callSubroutine a) :=
  ⟨_, rfl, rfl, by
    refine BitVec.eq_of_getLsbD_eq fun i hi => ?_
    simp only [encode, BitVec.getLsbD_and, BitVec.getLsbD_append]
    interval_cases i <;> simp⟩

theorem RowOfEncoding.skipIfEqualConst (x : Var) (k : Const8) : RowOfEncoding.Statement (.skipIfEqualConst x k) :=
  ⟨_, rfl, rfl, by
    refine BitVec.eq_of_getLsbD_eq fun i hi => ?_
    simp only [encode, BitVec.getLsbD_and, BitVec.getLsbD_append]
    interval_cases i <;> simp⟩

theorem RowOfEncoding.skipIfNotEqualConst (x : Var) (k : Const8) : RowOfEncoding.Statement (.skipIfNotEqualConst x k) :=
  ⟨_, rfl, rfl, by
    refine BitVec.eq_of_getLsbD_eq fun i hi => ?_
    simp only [encode, BitVec.getLsbD_and, BitVec.getLsbD_append]
    interval_cases i <;> simp⟩

theorem RowOfEncoding.skipIfEqual (x y : Var) : RowOfEncoding.Statement (.skipIfEqual x y) :=
  ⟨_, rfl, rfl, by decide +revert⟩

theorem RowOfEncoding.setConst (x : Var) (k : Const8) : RowOfEncoding.Statement (.setConst x k) :=
  ⟨_, rfl, rfl, by
    refine BitVec.eq_of_getLsbD_eq fun i hi => ?_
    simp only [encode, BitVec.getLsbD_and, BitVec.getLsbD_append]
    interval_cases i <;> simp⟩

theorem RowOfEncoding.addConst (x : Var) (k : Const8) : RowOfEncoding.Statement (.addConst x k) :=
  ⟨_, rfl, rfl, by
    refine BitVec.eq_of_getLsbD_eq fun i hi => ?_
    simp only [encode, BitVec.getLsbD_and, BitVec.getLsbD_append]
    interval_cases i <;> simp⟩

theorem RowOfEncoding.set (x y : Var) : RowOfEncoding.Statement (.set x y) :=
  ⟨_, rfl, rfl, by decide +revert⟩

theorem RowOfEncoding.or (x y : Var) : RowOfEncoding.Statement (.or x y) :=
  ⟨_, rfl, rfl, by decide +revert⟩

theorem RowOfEncoding.and (x y : Var) : RowOfEncoding.Statement (.and x y) :=
  ⟨_, rfl, rfl, by decide +revert⟩

theorem RowOfEncoding.xor (x y : Var) : RowOfEncoding.Statement (.xor x y) :=
  ⟨_, rfl, rfl, by decide +revert⟩

theorem RowOfEncoding.addReg (x y : Var) : RowOfEncoding.Statement (.addReg x y) :=
  ⟨_, rfl, rfl, by decide +revert⟩

theorem RowOfEncoding.subReg (x y : Var) : RowOfEncoding.Statement (.subReg x y) :=
  ⟨_, rfl, rfl, by decide +revert⟩

theorem RowOfEncoding.shiftRight (x y : Var) : RowOfEncoding.Statement (.shiftRight x y) :=
  ⟨_, rfl, rfl, by decide +revert⟩

theorem RowOfEncoding.subRegReverse (x y : Var) : RowOfEncoding.Statement (.subRegReverse x y) :=
  ⟨_, rfl, rfl, by decide +revert⟩

theorem RowOfEncoding.shiftLeft (x y : Var) : RowOfEncoding.Statement (.shiftLeft x y) :=
  ⟨_, rfl, rfl, by decide +revert⟩

theorem RowOfEncoding.skipIfNotEqual (x y : Var) : RowOfEncoding.Statement (.skipIfNotEqual x y) :=
  ⟨_, rfl, rfl, by decide +revert⟩

theorem RowOfEncoding.setIndex (a : Address) : RowOfEncoding.Statement (.setIndex a) :=
  ⟨_, rfl, rfl, by
    refine BitVec.eq_of_getLsbD_eq fun i hi => ?_
    simp only [encode, BitVec.getLsbD_and, BitVec.getLsbD_append]
    interval_cases i <;> simp⟩

theorem RowOfEncoding.jumpWithOffset (a : Address) : RowOfEncoding.Statement (.jumpWithOffset a) :=
  ⟨_, rfl, rfl, by
    refine BitVec.eq_of_getLsbD_eq fun i hi => ?_
    simp only [encode, BitVec.getLsbD_and, BitVec.getLsbD_append]
    interval_cases i <;> simp⟩

theorem RowOfEncoding.random (x : Var) (k : Const8) : RowOfEncoding.Statement (.random x k) :=
  ⟨_, rfl, rfl, by
    refine BitVec.eq_of_getLsbD_eq fun i hi => ?_
    simp only [encode, BitVec.getLsbD_and, BitVec.getLsbD_append]
    interval_cases i <;> simp⟩

theorem RowOfEncoding.draw (x y : Var) (h : Const4) : RowOfEncoding.Statement (.draw x y h) :=
  ⟨_, rfl, rfl, by
    refine BitVec.eq_of_getLsbD_eq fun i hi => ?_
    simp only [encode, BitVec.getLsbD_and, BitVec.getLsbD_append]
    interval_cases i <;> simp⟩

theorem RowOfEncoding.keyPressed (x : Var) : RowOfEncoding.Statement (.keyPressed x) :=
  ⟨_, rfl, rfl, by decide +revert⟩

theorem RowOfEncoding.keyNotPressed (x : Var) : RowOfEncoding.Statement (.keyNotPressed x) :=
  ⟨_, rfl, rfl, by decide +revert⟩

theorem RowOfEncoding.getDelayTimer (x : Var) : RowOfEncoding.Statement (.getDelayTimer x) :=
  ⟨_, rfl, rfl, by decide +revert⟩

theorem RowOfEncoding.waitForKey (x : Var) : RowOfEncoding.Statement (.waitForKey x) :=
  ⟨_, rfl, rfl, by decide +revert⟩

theorem RowOfEncoding.setDelayTimer (x : Var) : RowOfEncoding.Statement (.setDelayTimer x) :=
  ⟨_, rfl, rfl, by decide +revert⟩

theorem RowOfEncoding.setSoundTimer (x : Var) : RowOfEncoding.Statement (.setSoundTimer x) :=
  ⟨_, rfl, rfl, by decide +revert⟩

theorem RowOfEncoding.addToIndex (x : Var) : RowOfEncoding.Statement (.addToIndex x) :=
  ⟨_, rfl, rfl, by decide +revert⟩

theorem RowOfEncoding.setIndexToSprite (x : Var) : RowOfEncoding.Statement (.setIndexToSprite x) :=
  ⟨_, rfl, rfl, by decide +revert⟩

theorem RowOfEncoding.storeBcd (x : Var) : RowOfEncoding.Statement (.storeBcd x) :=
  ⟨_, rfl, rfl, by decide +revert⟩

theorem RowOfEncoding.storeRegisters (x : Var) : RowOfEncoding.Statement (.storeRegisters x) :=
  ⟨_, rfl, rfl, by decide +revert⟩

theorem RowOfEncoding.loadRegisters (x : Var) : RowOfEncoding.Statement (.loadRegisters x) :=
  ⟨_, rfl, rfl, by decide +revert⟩

end Sys2Proof.Laws
end

