-- ==== Sys2Proof/Tests/Slice0.lean ====
section
/-! SUPPORT. The model's own tests: the checks of WellFormed, one word per instruction written out from its encoding, the
scenarios the spec prints, single steps, and for every statement with hypotheses a state and operands that meet them all.
Expected values come from the spec's text, never from the model. -/

namespace Sys2Proof.Tests

open Sys2Proof Sys2Proof.Machine

/-! ## WellFormed: R103 (c), the two addresses that are no `CallMachineRoutine` -/

theorem test_wellFormed_refuses_clearScreen_word : (Instr.callMachineRoutine 0x0E0#12).wellFormed = false := by decide
theorem test_wellFormed_refuses_return_word : (Instr.callMachineRoutine 0x0EE#12).wellFormed = false := by decide
theorem test_wellFormed_accepts_neighbours :
    (Instr.callMachineRoutine 0x0E1#12).wellFormed = true ∧ (Instr.callMachineRoutine 0x1EE#12).wellFormed = true := by
  decide

/-! ## Decoding: words written out bit by bit from the encodings of 30_encoding.md and the group files -/

/-- R101 to R103. -/
theorem test_decode_group0 :
    decodeWord 0b0000000011101110#16 = .ok .ret ∧
    decodeWord 0b0000000011100000#16 = .ok .clearScreen ∧
    decodeWord 0b0000000111101110#16 = .ok (.callMachineRoutine 0x1EE#12) := by decide

/-- R104, R105, R122, R123: the low twelve bits are the address. -/
theorem test_decode_addresses :
    decodeWord 0b0001101010111101#16 = .ok (.jump 0xABD#12) ∧
    decodeWord 0b0010000000000001#16 = .ok (.callSubroutine 0x001#12) ∧
    decodeWord 0b1010001100010010#16 = .ok (.setIndex 0x312#12) ∧
    decodeWord 0b1011111111110000#16 = .ok (.jumpWithOffset 0xFF0#12) := by decide

/-- R106, R107, R109, R110, R124: register in bits 11..8, constant in bits 7..0. -/
theorem test_decode_register_constant :
    decodeWord 0b0011001010100101#16 = .ok (.skipIfEqualConst 0x2#4 0xA5#8) ∧
    decodeWord 0b0100110001011010#16 = .ok (.skipIfNotEqualConst 0xC#4 0x5A#8) ∧
    decodeWord 0b0110000111110000#16 = .ok (.setConst 0x1#4 0xF0#8) ∧
    decodeWord 0b0111111000001111#16 = .ok (.addConst 0xE#4 0x0F#8) ∧
    decodeWord 0b1100011110000001#16 = .ok (.random 0x7#4 0x81#8) := by decide

/-- R108, R121: registers in bits 11..8 and 7..4, last nibble zero. -/
theorem test_decode_register_pairs :
    decodeWord 0b0101001101000000#16 = .ok (.skipIfEqual 0x3#4 0x4#4) ∧
    decodeWord 0b1001111000010000#16 = .ok (.skipIfNotEqual 0xE#4 0x1#4) := by decide

/-- R112 to R120 (keys 0x5, 0x6, 0x7 by D7). -/
theorem test_decode_group8 :
    decodeWord 0b1000000100100000#16 = .ok (.set 0x1#4 0x2#4) ∧
    decodeWord 0b1000001100010001#16 = .ok (.or 0x3#4 0x1#4) ∧
    decodeWord 0b1000010000100010#16 = .ok (.and 0x4#4 0x2#4) ∧
    decodeWord 0b1000010100100011#16 = .ok (.xor 0x5#4 0x2#4) ∧
    decodeWord 0b1000011000100100#16 = .ok (.addReg 0x6#4 0x2#4) ∧
    decodeWord 0b1000011100100101#16 = .ok (.subReg 0x7#4 0x2#4) ∧
    decodeWord 0b1000100000100110#16 = .ok (.shiftRight 0x8#4 0x2#4) ∧
    decodeWord 0b1000100100100111#16 = .ok (.subRegReverse 0x9#4 0x2#4) ∧
    decodeWord 0b1000101000101110#16 = .ok (.shiftLeft 0xA#4 0x2#4) := by decide

/-- R125: a height of zero is no special case. -/
theorem test_decode_draw :
    decodeWord 0b1101010110101111#16 = .ok (.draw 0x5#4 0xA#4 0xF#4) ∧
    decodeWord 0b1101101001010000#16 = .ok (.draw 0xA#4 0x5#4 0x0#4) := by decide

/-- R127, R128 (pairing by D9). -/
theorem test_decode_groupE :
    decodeWord 0b1110010110011110#16 = .ok (.keyPressed 0x5#4) ∧
    decodeWord 0b1110101110100001#16 = .ok (.keyNotPressed 0xB#4) := by decide

/-- R130 to R138 (names by D8). -/
theorem test_decode_groupF :
    decodeWord 0b1111000100000111#16 = .ok (.getDelayTimer 0x1#4) ∧
    decodeWord 0b1111001000001010#16 = .ok (.waitForKey 0x2#4) ∧
    decodeWord 0b1111001100010101#16 = .ok (.setDelayTimer 0x3#4) ∧
    decodeWord 0b1111010000011000#16 = .ok (.setSoundTimer 0x4#4) ∧
    decodeWord 0b1111010100011110#16 = .ok (.addToIndex 0x5#4) ∧
    decodeWord 0b1111011000101001#16 = .ok (.setIndexToSprite 0x6#4) ∧
    decodeWord 0b1111011100110011#16 = .ok (.storeBcd 0x7#4) ∧
    decodeWord 0b1111100001010101#16 = .ok (.storeRegisters 0x8#4) ∧
    decodeWord 0b1111111101100101#16 = .ok (.loadRegisters 0xF#4) := by decide

/-- R63: the neighbours of accepted words that fail. -/
theorem test_decode_failures :
    decode 0x51 0x21 = .fail (.unrecognized ⟨0x5, 0x1, 0x2, 0x1⟩) ∧
    decode 0x81 0x28 = .fail (.unrecognized ⟨0x8, 0x1, 0x2, 0x8⟩) ∧
    decode 0x81 0x2F = .fail (.unrecognized ⟨0x8, 0x1, 0x2, 0xF⟩) ∧
    decode 0x91 0x2F = .fail (.unrecognized ⟨0x9, 0x1, 0x2, 0xF⟩) ∧
    decode 0xE1 0x9D = .fail (.unrecognized ⟨0xE, 0x1, 0x9, 0xD⟩) ∧
    decode 0xE1 0xA2 = .fail (.unrecognized ⟨0xE, 0x1, 0xA, 0x2⟩) ∧
    decode 0xF1 0x64 = .fail (.unrecognized ⟨0xF, 0x1, 0x6, 0x4⟩) ∧
    decode 0xF1 0x75 = .fail (.unrecognized ⟨0xF, 0x1, 0x7, 0x5⟩) := by decide

/-- R174: a caller that swaps the two bytes presents another word. -/
theorem test_decode_swapped_bytes : decode 0x34 0x12 = .ok (.skipIfEqualConst 0x4#4 0x12#8) := by decide

/-- The table's rows are 16-bit words, the first byte in bits 15..8 (R72, R32). -/
theorem test_decodeTableWord_order :
    decodeTableWord 16 0x1234 = some (.jump 0x234#12) ∧ decodeTableWord 16 0x5001 = none := by decide

/-- R57 at its boundary. -/
theorem test_addressFromOffset_boundary :
    addressFromOffset 4095 = .ok 0xFFF#12 ∧ addressFromOffset 4096 = .error { offset := 4096 } := ⟨rfl, rfl⟩

/-- R54: the shift is there (the source's helper lacks it). -/
theorem test_const8_shift : const8FromNibbles 0xF#4 0xF#4 = 0xFF#8 ∧ const8FromNibbles 0x1#4 0x2#4 = 0x12#8 := by decide

/-- R103 at its own edge: the last word of the group. -/
theorem test_encode_words :
    encode (.callMachineRoutine 0xFFF#12) = 0x0FFF#16 ∧ encode (.draw 0x1#4 0x2#4 0xF#4) = 0xD12F#16 ∧
    encode (.shiftLeft 0xA#4 0x2#4) = 0x8A2E#16 ∧ encode (.loadRegisters 0xF#4) = 0xFF65#16 := by decide

/-! ## Single steps -/

/-- A small state: power-on, some bytes stored, some inputs waiting. -/
def stateWith (m : Memory) (l : List Input) : State := { State.reset with mem := m, inputs := l }

/-- The next state of an outcome. -/
def next? : Result → Option State
  | .next s => some s
  | .fault _ => none
  | .refused _ => none

/-- S3 with R68: `Jump(0x234)` on the ports. -/
theorem test_step_jump :
    (next? (step (stateWith [] [.present [0x12, 0x34]]))).map (·.out) =
      some ⟨0x1234, true, 3, 0, 0, 0x234, 0, 0⟩ := by decide

/-- S5 with R68: `AddReg(1, 2)` on the ports. -/
theorem test_step_addReg :
    (next? (step (stateWith [] [.present [0x81, 0x24]]))).map (·.out) =
      some ⟨0x8124, true, 14, 1, 2, 0, 0, 0⟩ := by decide

/-- S6 with R68: `Draw(1, 2, 15)` on the ports. -/
theorem test_step_draw :
    (next? (step (stateWith [] [.present [0xD1, 0x2F]]))).map (·.out) =
      some ⟨0xD12F, true, 23, 1, 2, 0, 0, 0xF⟩ := by decide

/-- S7 with R68: the failure on the ports, whatever stood there before. -/
theorem test_step_failure :
    (next? (step (stateWith [] [.present [0xFF, 0xFF]]))).map (·.out) =
      some ⟨0xFFFF, false, 63, 0, 0, 0, 0, 0⟩ := by decide

/-- R33: a window at an odd offset is decoded as its own two bytes. -/
theorem test_step_odd_window :
    (next? (step (stateWith [(0x200, 0x12), (0x201, 0x60), (0x202, 0xFF)] [.window 0x201]))).map (·.out) =
      some ⟨0x60FF, true, 8, 0, 0, 0, 0xFF, 0⟩ := by decide

/-- R37: the loader's bytes land at rising offsets. -/
theorem test_step_load :
    (next? (step (stateWith [] [.loadRom 0x200 [0x00, 0xE0]]))).map (·.mem) =
      some [(0x200, 0x00), (0x201, 0xE0)] := by decide

/-- R39: a store overwrites in place. -/
theorem test_step_store :
    (next? (step (stateWith [(3, 1), (4, 2), (5, 3)] [.store 4 9]))).map (·.mem) =
      some [(3, 1), (4, 9), (5, 3)] := by decide

/-- A number on `off_in`, whose width the spec leaves open. -/
def offNum (n : Nat) (h : n < 8192 := by decide) : BitVec Config.offsetBits := BitVec.ofNatLT n (lt_two_pow_offsetBits h)

/-- R27, R57: the offset ports at the boundary. -/
theorem test_step_offset_boundary :
    (next? (step (stateWith [] [.driveOffset (offNum 4095)]))).map (fun t => (t.offErr, t.offAddr)) = some (false, 0xFFF#12) ∧
    (next? (step (stateWith [] [.driveOffset (offNum 4096)]))).map (·.offErr) = some true := by decide

/-- What the host's `withFetchWord` presents is run by the very next step: `ClearScreen`. -/
theorem test_step_withFetchWord :
    step (State.reset.withFetchWord 16 0x00E0) =
      exec .clearScreen ((State.reset.presentWord 0x00E0#16).extracted) := rfl

/-! ## Witnesses: for every statement with hypotheses, something that meets them all -/

theorem witness_Const8Assembly : (0x1#4 : Nibble) ≠ 0x0#4 := by decide

theorem witness_AddressFromOffsetBoundary : (0 : Nat) ≤ 4095 ∧ (4095 : Nat) ≤ 4095 ∧ (4095 : Nat) < 4096 := by decide

theorem witness_DecodeOfEncode :
    (Instr.callMachineRoutine 0xFFF#12).wellFormed = true ∧ (Instr.draw 0xF#4 0x0#4 0x0#4).wellFormed = true := by decide

theorem witness_EncodeOfDecode : decodeWord 0x0000#16 = .ok (.callMachineRoutine 0x000#12) := by decide

theorem witness_DecodeIsOpcodeTable :
    decodeWord 0x00E0#16 = .ok .clearScreen ∧
    decodeWord 0xFFFF#16 = .fail (.unrecognized ⟨0xF, 0xF, 0xF, 0xF⟩) := by decide

theorem witness_DispatchKeys :
    (0x1#4 : Nibble) ≠ 0x0#4 ∧
    ((0xF#4 : Nibble) = 0x0#4 ∨ (0xF#4 : Nibble) = 0x8#4 ∨ (0xF#4 : Nibble) = 0xE#4 ∨ (0xF#4 : Nibble) = 0xF#4) := by
  decide

theorem witness_GroupEightMap :
    (0x8#4 : Nibble) ∈ [0x8#4, 0x9#4, 0xA#4, 0xB#4, 0xC#4, 0xD#4, 0xF#4] ∧
    (0xF#4 : Nibble) ∈ [0x8#4, 0x9#4, 0xA#4, 0xB#4, 0xC#4, 0xD#4, 0xF#4] := by decide

theorem witness_TailKeyedGroups :
    ((0x9#4 : Nibble) ++ (0xF#4 : Nibble) ≠ 0x9E#8 ∧ (0x9#4 : Nibble) ++ (0xF#4 : Nibble) ≠ 0xA1#8) ∧
    (0x6#4 : Nibble) ++ (0x4#4 : Nibble) ∉
      [0x07#8, 0x0A#8, 0x15#8, 0x18#8, 0x1E#8, 0x29#8, 0x33#8, 0x55#8, 0x65#8] := by decide

theorem witness_NoFallback :
    acceptingVariants 0x5001#16 = [] ∧ acceptingVariants 0xFFFF#16 = [] ∧ (0x1#4 : Nibble) ≠ 0x0#4 ∧
    (0xF#4 : Nibble) ∈ [0x8#4, 0x9#4, 0xA#4, 0xB#4, 0xC#4, 0xD#4, 0xF#4] := by decide

theorem witness_WrongLengthHasNoResult :
    (([] : List Byte).length ≠ 2 ∧ (stateWith [] [.present []]).inputs = .present [] :: []) ∧
    ([0x12#8].length ≠ 2 ∧ (stateWith [] [.present [0x12]]).inputs = .present [0x12] :: []) ∧
    ([0x12#8, 0x34#8, 0x56#8].length ≠ 2 ∧
      (stateWith [] [.present [0x12, 0x34, 0x56]]).inputs = .present [0x12, 0x34, 0x56] :: []) := by decide

theorem witness_DecodingWritesOnlyPorts : ∃ t, exec (.storeRegisters 0xF#4) State.reset = .next t := ⟨_, rfl⟩

theorem witness_MeaningsDriveThePortImage :
    (Instr.jump 0x234#12).wellFormed = true ∧
    ((stateWith [] []).presentWord (encode (.jump 0x234#12))).extracted.out.quartet = encode (.jump 0x234#12) :=
  ⟨rfl, rfl⟩

theorem witness_StepRunsDecodedInstruction_taken :
    ∃ t, takeInput (stateWith [] [.present [0x60, 0xFF]]) = .next t ∧ decodeWord t.opIn = .ok (.setConst 0x0#4 0xFF#8) :=
  ⟨_, rfl, rfl⟩

theorem witness_StepRunsDecodedInstruction_present :
    (stateWith [] [.present [0x60, 0xFF]]).inputs = .present [0x60, 0xFF] :: [] ∧
    decode 0x60 0xFF = .ok (.setConst 0x0#4 0xFF#8) := by decide

/-- The last window of the guaranteed region. -/
theorem witness_StepRunsDecodedInstruction_window :
    let s := stateWith [(4094, 0x60), (4095, 0xFF)] [.window 4094]
    s.inputs = .window 4094 :: [] ∧ 4094 + 1 < Config.regionBytes ∧
      decode (s.byteAt 4094) (s.byteAt (4094 + 1)) = .ok (.setConst 0x0#4 0xFF#8) :=
  ⟨rfl, lt_regionBytes (by decide), rfl⟩

theorem witness_StepReportsDecodeFailure :
    ∃ t, takeInput (stateWith [] [.present [0xFF, 0xFF]]) = .next t ∧
      decodeWord t.opIn = .fail (.unrecognized ⟨0xF, 0xF, 0xF, 0xF⟩) := ⟨_, rfl, rfl⟩

theorem witness_FailureIsAResult :
    (stateWith [] [.present [0xFF, 0xFF], .present [0x12, 0x34]]).inputs =
      .present [0xFF, 0xFF] :: .present [0x12, 0x34] :: [] ∧
    decode 0xFF 0xFF = .fail (.unrecognized ⟨0xF, 0xF, 0xF, 0xF⟩) := by decide

theorem witness_OutputsFollowInputs : ∃ t, step (stateWith [] [.present [0xD1, 0x2F]]) = .next t := ⟨_, rfl⟩

/-- A state with a stored byte, a settled result and an input waiting. -/
def settledState : State :=
  { opIn := 0x8124, out := ⟨0x8124, true, 14, 1, 2, 0, 0, 0⟩, offIn := offNum 4095, offErr := false, offAddr := 0xFFF,
    mem := [(0x200, 0x12)], inputs := [.present [0x12, 0x34]], draws := 7 }

theorem settledState_inv : settledState.Inv where
  decodeSettled := rfl
  offsetSettled := ⟨rfl, fun _ => rfl⟩
  memoryValid := by
    refine ⟨rfl, fun a h => lt_regionBytes ?_⟩
    by_cases ha : a = 0x200
    · omega
    · simp [settledState, Memory.stored?, ha] at h

theorem witness_StepKeepsInvariant : settledState.Inv ∧ ∃ t, step settledState = .next t :=
  ⟨settledState_inv, _, rfl⟩

theorem witness_ResultDependsOnlyOnTheWord :
    ∃ s' t', step settledState = .next s' ∧ step (stateWith [] [.present [0x12, 0x34], .window 9]) = .next t' ∧
      s'.opIn = t'.opIn := ⟨_, _, rfl, rfl, rfl⟩

theorem witness_PresentedBytesReturnTheirResult : settledState.inputs = .present [0x12, 0x34] :: [] := rfl

/-- The second clause's two hypotheses force its two words to be equal, so a word beside itself meets them. -/
theorem witness_PortsCarryTheResult :
    (portImage 0xD12F#16).ok = true ∧
    { portImage 0xD12F#16 with quartet := 0#16 } = { portImage 0xD12F#16 with quartet := 0#16 } := by decide

theorem witness_TagsThatAppear :
    (∃ t, step (stateWith [] [.present [0xFF, 0x65]]) = .next t) ∧
    (∃ t, step (stateWith [] [.present [0xFF, 0xFF]]) = .next t) := ⟨⟨_, rfl⟩, _, rfl⟩

theorem witness_DecodeTouchesNothing_twice :
    (stateWith [(0, 0x12), (1, 0x34)] [.window 0, .window 0]).inputs = .window 0 :: .window 0 :: [] ∧
    0 + 1 < Config.regionBytes := ⟨rfl, lt_regionBytes (by decide)⟩

theorem witness_DecodeTouchesNothing_beyond :
    let s := stateWith [(0, 0x12), (1, 0x34)] [.window 0]
    let r := stateWith [(0, 0x12), (1, 0x34), (2, 0x56)] [.window 0]
    s.inputs = .window 0 :: [] ∧ r.inputs = .window 0 :: [] ∧ s.byteAt 0 = r.byteAt 0 ∧
      s.byteAt (0 + 1) = r.byteAt (0 + 1) ∧ ∃ s' r', step s = .next s' ∧ step r = .next r' :=
  ⟨rfl, rfl, rfl, rfl, _, _, rfl, rfl⟩

/-- A settled state with nothing presented. -/
theorem witness_IdleStepIsIdentity :
    (settledState.setInputs []).Inv ∧ (settledState.setInputs []).inputs = [] ∧
      (settledState.setInputs []).offErr = false :=
  ⟨⟨settledState_inv.1, settledState_inv.2, settledState_inv.3⟩, rfl, rfl⟩

theorem witness_BigEndianWindow :
    let s := stateWith [(0x201, 0x12), (0x202, 0x34)] [.window 0x201]
    s.inputs = .window 0x201 :: [] ∧ ∃ t, step s = .next t := ⟨rfl, _, rfl⟩

/-- The first and the last window of the guaranteed region. -/
theorem witness_WindowIsItsTwoBytes :
    ((stateWith [] [.window 0]).inputs = .window 0 :: [] ∧ 0 + 1 < Config.regionBytes) ∧
    ((stateWith [] [.window 4094]).inputs = .window 4094 :: [] ∧ 4094 + 1 < Config.regionBytes) :=
  ⟨⟨rfl, lt_regionBytes (by decide)⟩, rfl, lt_regionBytes (by decide)⟩

theorem witness_StoreWritesOneByte :
    (stateWith [] [.store 4095 0xFF]).inputs = .store 4095 0xFF :: [] ∧ 4095 < Config.regionBytes ∧
      (stateWith [] [.store 4095 0xFF]).DecodeSettled ∧ (0 : Nat) ≠ 4095 :=
  ⟨rfl, lt_regionBytes (by decide), rfl, by decide⟩

/-- The stored byte as the window's first byte, as its second, and outside it. -/
theorem witness_WindowSeesStore :
    ((stateWith [] [.store 4094 1, .window 4094]).inputs = .store 4094 1 :: .window 4094 :: [] ∧
      4094 < Config.regionBytes ∧ 4094 + 1 < Config.regionBytes) ∧
    ((stateWith [] [.store 4095 1, .window 4094]).inputs = .store 4095 1 :: .window 4094 :: [] ∧
      4095 < Config.regionBytes ∧ 4094 + 1 < Config.regionBytes) ∧
    ((stateWith [] [.store 0 1, .window 1]).inputs = .store 0 1 :: .window 1 :: [] ∧
      0 < Config.regionBytes ∧ 1 + 1 < Config.regionBytes) :=
  ⟨⟨rfl, lt_regionBytes (by decide), lt_regionBytes (by decide)⟩,
    ⟨rfl, lt_regionBytes (by decide), lt_regionBytes (by decide)⟩,
    rfl, lt_regionBytes (by decide), lt_regionBytes (by decide)⟩

/-- A load that ends exactly at the region's guaranteed end. -/
theorem witness_LoadPlacesProgram :
    (stateWith [] [.loadRom 4094 [0x12, 0x34]]).inputs = .loadRom 4094 [0x12, 0x34] :: [] ∧
      4094 + [0x12#8, 0x34#8].length ≤ Config.regionBytes ∧ 1 < [0x12#8, 0x34#8].length ∧
      ((4093 < 4094 ∨ 4094 + [0x12#8, 0x34#8].length ≤ 4093) ∧
        (4096 < 4094 ∨ 4094 + [0x12#8, 0x34#8].length ≤ 4096)) :=
  ⟨rfl, lt_regionBytes (a := 4095) (by decide), by decide, by decide⟩

/-- The last, odd window of a loaded program. -/
theorem witness_LoadedProgramDecodes :
    1 + 1 < [0x12#8, 0x60#8, 0xFF#8].length ∧
    (stateWith [] [.loadRom 0x200 [0x12, 0x60, 0xFF], .window (0x200 + 1)]).inputs =
      .loadRom 0x200 [0x12, 0x60, 0xFF] :: .window (0x200 + 1) :: [] ∧
    0x200 + [0x12#8, 0x60#8, 0xFF#8].length ≤ Config.regionBytes :=
  ⟨by decide, rfl, lt_regionBytes (a := 0x202) (by decide)⟩

theorem witness_TwoErrorKindsOnly :
    decode 0xFF 0xFF = .fail (.unrecognized ⟨0xF, 0xF, 0xF, 0xF⟩) ∧
    step (stateWith [] [.callOffset 4096]) = .fault (.constructionRangeError 4096) ∧
    (stateWith [] [.callOffset 4096]).inputs = .callOffset 4096 :: [] ∧ 4095 < 4096 :=
  ⟨by decide, rfl, rfl, by decide⟩

theorem witness_OffsetCall :
    ((stateWith [] [.callOffset 4095]).inputs = .callOffset 4095 :: [] ∧ 4095 ≤ 4095) ∧
    ((stateWith [] [.callOffset 4096]).inputs = .callOffset 4096 :: [] ∧ 4095 < 4096) := by decide

theorem witness_OffsetPorts :
    ((stateWith [] [.driveOffset (offNum 4095)]).inputs = .driveOffset (offNum 4095) :: [] ∧
      (offNum 4095).toNat ≤ 4095) ∧
    ((stateWith [] [.driveOffset (offNum 4096)]).inputs = .driveOffset (offNum 4096) :: [] ∧
      4095 < (offNum 4096).toNat) ∧
    (stateWith [] [.driveOffset (offNum 4095)]).DecodeSettled := ⟨by decide, by decide, rfl⟩

theorem witness_RefusalsAreTheBoundarys :
    step (stateWith [] [.present [0x12]]) = .refused (.inputNotTwoBytes 1) := rfl

theorem inRegion_end : inRegion Config.regionBytes = false := by
  cases h : inRegion Config.regionBytes with
  | false => rfl
  | true => exact absurd ((inRegion_iff _).1 h) (Nat.lt_irrefl _)

/-- A window, a store and a load at the first offset beyond the region. -/
theorem witness_RefusalsAreTheBoundarys_outside :
    step (stateWith [] [.window Config.regionBytes]) = .refused (.outsideRegion Config.regionBytes) ∧
    step (stateWith [] [.store Config.regionBytes 0]) = .refused (.outsideRegion Config.regionBytes) ∧
    step (stateWith [] [.loadRom Config.regionBytes [0]]) = .refused (.outsideRegion Config.regionBytes) := by
  simp [step, takeInput, stateWith, applyInput, presentWindow, storeInput, loadInput, firstOutside?, inRegion_end]

/-- A window whose second byte alone lies outside: the region's last byte is its first. -/
theorem witness_RefusalsAreTheBoundarys_second_byte :
    step (stateWith [] [.window (4095 + Config.extraRegionBytes)]) = .refused (.outsideRegion Config.regionBytes) := by
  have hin : inRegion (4095 + Config.extraRegionBytes) = true :=
    (inRegion_iff _).2 (by simp only [Config.regionBytes, Config.minRegionBytes]; omega)
  have hend : 4095 + Config.extraRegionBytes + 1 = Config.regionBytes := by
    simp only [Config.regionBytes, Config.minRegionBytes]; omega
  simp [step, takeInput, stateWith, applyInput, presentWindow, firstOutside?, hin, hend, inRegion_end]

/-- A window with one byte outside, a store and a non-empty load at the first offset beyond. -/
theorem witness_AccessOutsideIsRefused :
    (stateWith [] [.window (4095 + Config.extraRegionBytes)]).inputs =
      .window (4095 + Config.extraRegionBytes) :: [] ∧
    Config.regionBytes ≤ 4095 + Config.extraRegionBytes + 1 ∧
    (stateWith [] [.store Config.regionBytes 0]).inputs = .store Config.regionBytes 0 :: [] ∧
    Config.regionBytes ≤ Config.regionBytes ∧
    (stateWith [] [.loadRom Config.regionBytes [0]]).inputs = .loadRom Config.regionBytes [0] :: [] ∧
    [0#8] ≠ [] ∧ Config.regionBytes < Config.regionBytes + [0#8].length :=
  ⟨rfl, by simp only [Config.regionBytes, Config.minRegionBytes]; omega, rfl, Nat.le_refl _, rfl, by decide,
    Nat.lt_succ_self _⟩

theorem witness_ConsumerExecutesOnlyInstructions :
    decodeWord 0x1234#16 = .ok (.jump 0x234#12) ∧
    decodeWord 0xFFFF#16 = .fail (.unrecognized ⟨0xF, 0xF, 0xF, 0xF⟩) := by decide

end Sys2Proof.Tests
end

section
/-! PROOFS. The two results of the decoder, by what the dispatch answers (R17, R60, R151). -/

namespace Sys2Proof

/-- A quartet the dispatch accepts decodes to its variant with the operands assembled (R60). -/
theorem decodeQuartet_of_dispatch_some {q : Quartet} {v : Variant} (h : dispatchVariant q = some v) :
    decodeQuartet q = .ok (assembleOperands v q) := by
  simp only [decodeQuartet, h]

/-- A quartet the dispatch does not accept decodes to the failure that carries it (R151). -/
theorem decodeQuartet_of_dispatch_none {q : Quartet} (h : dispatchVariant q = none) :
    decodeQuartet q = .fail (.unrecognized q) := by
  simp only [decodeQuartet, h]

/-- Settles O12, by the two answers of the dispatch on the quartet of the two bytes. -/
theorem exactlyOneResult : Obligations.ExactlyOneResult := by
  intro b0 b1
  cases h : dispatchVariant (extractNibbles b0 b1) with
  | some v =>
    have hok : decode b0 b1 = .ok (assembleOperands v (extractNibbles b0 b1)) := decodeQuartet_of_dispatch_some h
    exact .inl ⟨⟨_, hok⟩, by simp [hok]⟩
  | none =>
    have hfail : decode b0 b1 = .fail (.unrecognized (extractNibbles b0 b1)) := decodeQuartet_of_dispatch_none h
    exact .inr ⟨hfail, by simp [hfail]⟩

end Sys2Proof
end

section
/-! PROOFS. What settling does: it always answers a next state, in which the result ports are the port image of the word
on `op_in` (R10, R25) and the offset path has followed `off_in`; nothing else moves. -/

namespace Sys2Proof

/-- The assembled address is its three nibbles in order (R53). -/
theorem addressFromNibbles_eq_append (n1 n2 n3 : Nibble) : addressFromNibbles n1 n2 n3 = n1 ++ n2 ++ n3 := by
  refine BitVec.eq_of_getLsbD_eq fun i hi => ?_
  simp only [addressFromNibbles, BitVec.getLsbD_or, BitVec.getLsbD_shiftLeft, BitVec.getLsbD_setWidth,
    BitVec.getLsbD_append]
  interval_cases i <;> simp

/-- The assembled constant is its two nibbles in order (R54). -/
theorem const8FromNibbles_eq_append (n2 n3 : Nibble) : const8FromNibbles n2 n3 = n2 ++ n3 := by
  decide +revert

end Sys2Proof

namespace Sys2Proof.Machine

/-- With the word's quartet on its port, the meaning of the assembled instruction drives the row of its variant (R68). -/
theorem exec_assembleOperands (v : Variant) (q : Quartet) (s : State) (hq : s.out.quartet = q.toWord) :
    exec (assembleOperands v q) s = .next { s with out := formatImage v q } := by
  have ha := addressFromNibbles_eq_append q.n1 q.n2 q.n3
  have hk := const8FromNibbles_eq_append q.n2 q.n3
  simp only [formatImage, ← ha, ← hk, ← hq]
  cases v <;> rfl

/-- The state in which every output has followed the input ports. -/
def State.settled (s : State) : State := { s.settleOffset with out := portImage s.opIn }

section
variable (s : State)

@[simp] theorem State.settled_opIn : s.settled.opIn = s.opIn := s.settleOffset_opIn
@[simp] theorem State.settled_out : s.settled.out = portImage s.opIn := rfl
@[simp] theorem State.settled_offIn : s.settled.offIn = s.offIn := s.settleOffset_offIn
@[simp] theorem State.settled_offErr : s.settled.offErr = decide (4095 < s.offIn.toNat) := s.settleOffset_offErr
@[simp] theorem State.settled_offAddr : s.settled.offAddr = s.settleOffset.offAddr := rfl
@[simp] theorem State.settled_mem : s.settled.mem = s.mem := s.settleOffset_mem
@[simp] theorem State.settled_inputs : s.settled.inputs = s.inputs := s.settleOffset_inputs
@[simp] theorem State.settled_draws : s.settled.draws = s.settleOffset.draws := rfl

end

/-- Settling always completes, on a failing word too (R17, R152), in the settled state. -/
theorem settle_eq_settled (s : State) : settle s = .next s.settled := by
  have hport : s.extracted.out.quartet = (extractNibbles (firstByte s.opIn) (secondByte s.opIn)).toWord := by simp
  cases hv : dispatchVariant (extractNibbles (firstByte s.opIn) (secondByte s.opIn)) with
  | some v =>
    have hdec : decodeWord s.opIn = .ok (assembleOperands v _) := decodeQuartet_of_dispatch_some hv
    simp only [settle, hdec, exec_assembleOperands v _ _ hport, State.settled, portImage, hv]
    rfl
  | none =>
    have hdec : decodeWord s.opIn = .fail (.unrecognized _) := decodeQuartet_of_dispatch_none hv
    simp only [settle, hdec, State.settled, portImage, hv]
    rfl

/-- A step that has taken its input ends settled. -/
theorem step_of_takeInput {s t : State} (h : takeInput s = .next t) : step s = .next t.settled := by
  simp only [step, h, settle_eq_settled]

end Sys2Proof.Machine
end

section
/-! PROOFS. The window step: its two bytes, big-endian, on `op_in`, and nothing written (20_memory.md, R31, R32, R35). -/

namespace Sys2Proof

/-- The word of two bytes by shift and or (R32). -/
theorem wordOfBytes_eq_shift_or (b0 b1 : Byte) :
    wordOfBytes b0 b1 = (b0.setWidth 16 <<< 8) ||| b1.setWidth 16 := by
  refine BitVec.eq_of_getLsbD_eq fun i hi => ?_
  simp only [wordOfBytes, BitVec.getLsbD_or, BitVec.getLsbD_shiftLeft, BitVec.getLsbD_setWidth, BitVec.getLsbD_append]
  interval_cases i <;> simp

/-- The value of the word of two bytes (R32). -/
theorem wordOfBytes_toNat (b0 b1 : Byte) : (wordOfBytes b0 b1).toNat = 256 * b0.toNat + b1.toNat := by
  rw [wordOfBytes, BitVec.toNat_append, ← Nat.shiftLeft_add_eq_or_of_lt b1.isLt, Nat.shiftLeft_eq, Nat.mul_comm]

end Sys2Proof

namespace Sys2Proof.Machine

/-- A byte of the region is read from the memory alone. -/
theorem State.byteAt_congr {s t : State} (h : s.mem = t.mem) (d : Nat) : s.byteAt d = t.byteAt d := by
  simp only [State.byteAt, h]

/-- The state after the window at `a` is cut, presented and decoded, with `rest` still to come. -/
def State.afterWindow (s : State) (a : Nat) (rest : List Input) : State :=
  ((s.setInputs rest).presentWord (s.windowAt a)).settled

section
variable (s : State) (a : Nat) (rest : List Input)

@[simp] theorem State.afterWindow_opIn : (s.afterWindow a rest).opIn = s.windowAt a := by simp [State.afterWindow]
@[simp] theorem State.afterWindow_out : (s.afterWindow a rest).out = portImage (s.windowAt a) := rfl
@[simp] theorem State.afterWindow_offIn : (s.afterWindow a rest).offIn = s.offIn := by simp [State.afterWindow]
@[simp] theorem State.afterWindow_mem : (s.afterWindow a rest).mem = s.mem := by simp [State.afterWindow]
@[simp] theorem State.afterWindow_inputs : (s.afterWindow a rest).inputs = rest := by simp [State.afterWindow]

@[simp] theorem State.afterWindow_byteAt (d : Nat) : (s.afterWindow a rest).byteAt d = s.byteAt d :=
  State.byteAt_congr (s.afterWindow_mem a rest) d

@[simp] theorem State.afterWindow_windowAt (c : Nat) : (s.afterWindow a rest).windowAt c = s.windowAt c := by
  simp [State.windowAt]

end

/-- The surroundings' part of a window step is the window cut (R31). -/
theorem takeInput_window {s : State} {a : Nat} {rest : List Input} (hs : s.inputs = .window a :: rest) :
    takeInput s = presentWindow a (s.setInputs rest) := by
  simp only [takeInput, hs, applyInput]

/-- A window inside the region is always decoded (R33). -/
theorem step_window_inside {s : State} {a : Nat} {rest : List Input} (hs : s.inputs = .window a :: rest)
    (ha : a + 1 < Config.regionBytes) : step s = .next (s.afterWindow a rest) :=
  step_of_takeInput ((takeInput_window hs).trans (presentWindow_inside _ ha))

/-- A window step that answers a next state decodes the window (R31). -/
theorem step_window_next {s t : State} {a : Nat} {rest : List Input} (hs : s.inputs = .window a :: rest)
    (h : step s = .next t) : t = s.afterWindow a rest := by
  obtain ⟨u, htake, -⟩ := step_next h
  obtain ⟨ha, -⟩ := presentWindow_next ((takeInput_window hs).symm.trans htake)
  exact Host.Outcome.next.inj (h.symm.trans (step_window_inside hs ha))

/-- Settles O41: the window step leaves the memory alone, so the second cut is of the same word, and the result ports are
the port image of that word. -/
theorem decodeTouchesNothing : Obligations.DecodeTouchesNothing := by
  refine ⟨fun s a rest hs ha => ?_, fun s r s' r' a srest rrest hs hr h0 h1 hs' hr' => ?_⟩
  · have hfirst := step_window_inside hs ha
    have hsecond := step_window_inside (s.afterWindow_inputs a (.window a :: rest)) ha
    exact ⟨_, _, hfirst, hsecond, by simp⟩
  · have hword : s.windowAt a = r.windowAt a := by simp only [State.windowAt, h0, h1]
    rw [step_window_next hs hs', step_window_next hr hr', State.afterWindow_out, State.afterWindow_out, hword]

/-- Settles O43, by the value of the word of two bytes and what a window step holds on `op_in`. -/
theorem bigEndianWindow : Obligations.BigEndianWindow := by
  refine ⟨fun b0 b1 => ⟨wordOfBytes_eq_shift_or b0 b1, wordOfBytes_toNat b0 b1⟩, fun s t a rest hs ht => ?_, ?_⟩
  · rw [step_window_next hs ht, State.afterWindow_opIn, State.windowAt, wordOfBytes_toNat]
  · decide

end Sys2Proof.Machine
end

section
/-! PROOFS. The encoding's small functions: the nibbles of two bytes (R51), the operands put together from them (R53 to
R56), and the nibbles each dispatch group is keyed on (R58). -/

namespace Sys2Proof

/-! ## The nibbles of a word (R51) -/

/-- The quartet of two bytes, as the fields of their word (R51). -/
theorem extractNibbles_eq_word_fields (b0 b1 : Byte) :
    extractNibbles b0 b1 =
      ⟨(wordOfBytes b0 b1).extractLsb' 12 4, (wordOfBytes b0 b1).extractLsb' 8 4,
        (wordOfBytes b0 b1).extractLsb' 4 4, (wordOfBytes b0 b1).extractLsb' 0 4⟩ := by
  simpa using extractNibbles_bytes (wordOfBytes b0 b1)

/-- Nothing of the word is lost in its quartet (R51). -/
theorem toWord_extractNibbles (b0 b1 : Byte) : (extractNibbles b0 b1).toWord = wordOfBytes b0 b1 := by
  rw [extractNibbles_eq_word_fields, Quartet.toWord]
  generalize wordOfBytes b0 b1 = w
  simp only [BitVec.extractLsb'_append_extractLsb'_eq_extractLsb']
  exact BitVec.extractLsb'_eq_self

/-- The high nibble of a byte by shift (R51). -/
theorem highNibble_setWidth (b : Byte) : (b.extractLsb' 4 4).setWidth 8 = b >>> 4 := by
  apply BitVec.eq_of_toNat_eq
  simp only [BitVec.toNat_setWidth, BitVec.extractLsb'_toNat, BitVec.toNat_ushiftRight, Nat.shiftRight_eq_div_pow]
  omega

/-- The low nibble of a byte by mask (R51). -/
theorem lowNibble_setWidth (b : Byte) : (b.extractLsb' 0 4).setWidth 8 = b &&& 0xF#8 := by
  apply BitVec.eq_of_toNat_eq
  have hmask : b.toNat &&& 0xF = b.toNat % 16 := Nat.and_two_pow_sub_one_eq_mod b.toNat 4
  simp only [BitVec.toNat_setWidth, BitVec.extractLsb'_toNat, BitVec.toNat_and, BitVec.toNat_ofNat, Nat.shiftRight_zero,
    Nat.reducePow, Nat.reduceMod, hmask]
  omega

/-- Settles O1: the byte fields are the definition, the word fields are those of the word's own quartet, and shift and mask
give the nibbles' values. -/
theorem nibbleExtraction : Obligations.NibbleExtraction := by
  intro b0 b1
  obtain ⟨h0, h1, h2, h3⟩ := Quartet.mk.inj (extractNibbles_eq_word_fields b0 b1)
  exact ⟨rfl, rfl, rfl, rfl, h0, h1, h2, h3, highNibble_setWidth b0, lowNibble_setWidth b0, highNibble_setWidth b1,
    lowNibble_setWidth b1, toWord_extractNibbles b0 b1, by decide, by decide⟩

/-! ## The operands put together from nibbles (R53 to R56) -/

/-- The value of an address made of three nibbles (R53). -/
theorem addressFromNibbles_toNat (n1 n2 n3 : Nibble) :
    (addressFromNibbles n1 n2 n3).toNat = 256 * n1.toNat + 16 * n2.toNat + n3.toNat := by
  rw [addressFromNibbles_eq_append, BitVec.toNat_append, BitVec.toNat_append, ← Nat.shiftLeft_add_eq_or_of_lt n3.isLt,
    ← Nat.shiftLeft_add_eq_or_of_lt n2.isLt, Nat.shiftLeft_eq, Nat.shiftLeft_eq]
  omega

/-- The value of a constant made of two nibbles (R54). -/
theorem const8FromNibbles_toNat (n2 n3 : Nibble) : (const8FromNibbles n2 n3).toNat = 16 * n2.toNat + n3.toNat := by
  rw [const8FromNibbles_eq_append, BitVec.toNat_append, ← Nat.shiftLeft_add_eq_or_of_lt n3.isLt, Nat.shiftLeft_eq,
    Nat.mul_comm]

/-- The address of three neighbouring nibbles of a vector is the 12-bit field they make up (R53). -/
theorem addressFromNibbles_fields {w : Nat} (x : BitVec w) :
    addressFromNibbles (x.extractLsb' 8 4) (x.extractLsb' 4 4) (x.extractLsb' 0 4) = x.extractLsb' 0 12 := by
  simp only [addressFromNibbles_eq_append, BitVec.extractLsb'_append_extractLsb'_eq_extractLsb']

/-- The constant of two neighbouring nibbles of a vector is the 8-bit field they make up (R54). -/
theorem const8FromNibbles_fields {w : Nat} (x : BitVec w) :
    const8FromNibbles (x.extractLsb' 4 4) (x.extractLsb' 0 4) = x.extractLsb' 0 8 := by
  simp only [const8FromNibbles_eq_append, BitVec.extractLsb'_append_extractLsb'_eq_extractLsb']

/-- The faulty helper's unshifted or stays below 16 (90_conflicts.md C2); a constant with a non-zero high nibble does not. -/
theorem const8FromNibbles_ne_unshifted_or {n2 n3 : Nibble} (h : n2 ≠ 0#4) :
    const8FromNibbles n2 n3 ≠ n2.setWidth 8 ||| n3.setWidth 8 := by
  intro heq
  have hor : n2.toNat ||| n3.toNat < 2 ^ 4 := Nat.or_lt_two_pow n2.isLt n3.isLt
  have hpos : n2.toNat ≠ 0 := fun h0 => h (BitVec.eq_of_toNat_eq h0)
  have hval : 16 * n2.toNat + n3.toNat = n2.toNat ||| n3.toNat := by
    rw [← const8FromNibbles_toNat, heq, BitVec.toNat_or, BitVec.toNat_setWidth_of_le (by decide),
      BitVec.toNat_setWidth_of_le (by decide)]
  omega

/-- Settles O2: the definition is the shift form, and the concatenation joins neighbouring fields of the word. -/
theorem addressAssembly : Obligations.AddressAssembly := by
  refine ⟨fun n1 n2 n3 => ⟨rfl, addressFromNibbles_eq_append n1 n2 n3, addressFromNibbles_toNat n1 n2 n3⟩,
    fun b0 b1 => ?_, fun a => (addressFromNibbles_fields a).trans BitVec.extractLsb'_eq_self, by decide⟩
  rw [extractNibbles_eq_word_fields]
  exact addressFromNibbles_fields _

/-- Settles O3: the two nibbles are neighbouring fields of the second byte and of the word. -/
theorem const8Assembly : Obligations.Const8Assembly := by
  refine ⟨fun n2 n3 => ⟨rfl, const8FromNibbles_eq_append n2 n3, const8FromNibbles_toNat n2 n3,
    const8FromNibbles_ne_unshifted_or⟩, fun b0 b1 => ⟨?_, ?_⟩, by decide, by decide, by decide⟩
  · exact (const8FromNibbles_fields b1).trans BitVec.extractLsb'_eq_self
  · rw [extractNibbles_eq_word_fields]
    exact const8FromNibbles_fields _

/-- How many `Var` operands a format has (R52). -/
def Format.varCount : Format → Nat
  | .z | .a => 0
  | .xk | .x => 1
  | .xy | .xyh => 2

/-- The `Var` operands of a variant's payload are as many of `Var(n1)`, `Var(n2)` as its format has (R52, R56). -/
theorem vars_assembleOperands (v : Variant) (q : Quartet) :
    (assembleOperands v q).payload.filterMap Operand.var? =
      [varFromNibble q.n1, varFromNibble q.n2].take v.format.varCount := by
  cases v <;> rfl

/-- Settles O4: a payload takes its `Var` operands from the front of `[Var(n1), Var(n2)]`. -/
theorem nibbleOperandsUnchanged : Obligations.NibbleOperandsUnchanged := by
  refine ⟨fun n => ⟨rfl, rfl⟩, fun v q => ?_⟩
  rw [vars_assembleOperands]
  exact List.take_prefix _ _

/-! ## The keys of the dispatch groups (R58) -/

/-- Outside group 0x0 the dispatch never reads `n1` (R58). -/
theorem dispatchVariant_n1_irrelevant {n0 : Nibble} (h : n0 ≠ 0x0#4) (n1 m1 n2 n3 : Nibble) :
    dispatchVariant ⟨n0, n1, n2, n3⟩ = dispatchVariant ⟨n0, m1, n2, n3⟩ := by
  obtain h0 | hrest := Nibble.cases n0
  · exact absurd h0 h
  · rcases hrest with rfl | rfl | rfl | rfl | rfl | rfl | rfl | rfl | rfl | rfl | rfl | rfl | rfl | rfl | rfl <;> rfl

/-- Group 0x8 is keyed on `n3` alone (R58, R111). -/
theorem dispatchVariant_group8 (n1 n2 n3 : Nibble) : dispatchVariant ⟨0x8, n1, n2, n3⟩ = dispatchGroup8 n3 := rfl

/-- Group 0x0 reads `n1`: the key that makes `Return` makes `CallMachineRoutine` under another `n1` (R58, R100). -/
theorem dispatchVariant_group0_reads_n1 :
    dispatchVariant ⟨0x0, 0x0, 0xE, 0xE⟩ ≠ dispatchVariant ⟨0x0, 0x1, 0xE, 0xE⟩ := by
  decide

/-- Groups 0x0, 0x8, 0xE and 0xF hold more than one variant (R58). -/
theorem dispatchVariant_two_variants {n0 : Nibble} (h : n0 = 0x0#4 ∨ n0 = 0x8#4 ∨ n0 = 0xE#4 ∨ n0 = 0xF#4) :
    ∃ v u n1 n2 n3 m1 m2 m3, v ≠ u ∧ dispatchVariant ⟨n0, n1, n2, n3⟩ = some v ∧
      dispatchVariant ⟨n0, m1, m2, m3⟩ = some u := by
  rcases h with rfl | rfl | rfl | rfl
  · exact ⟨.ret, .clearScreen, 0x0, 0xE, 0xE, 0x0, 0xE, 0x0, by decide, rfl, rfl⟩
  · exact ⟨.set, .or, 0x0, 0x0, 0x0, 0x0, 0x0, 0x1, by decide, rfl, rfl⟩
  · exact ⟨.keyPressed, .keyNotPressed, 0x0, 0x9, 0xE, 0x0, 0xA, 0x1, by decide, rfl, rfl⟩
  · exact ⟨.getDelayTimer, .waitForKey, 0x0, 0x0, 0x7, 0x0, 0x0, 0xA, by decide, rfl, rfl⟩

/-- Settles O14: the one-variant groups and the two keyed on `n3 = 0` are arms of the dispatch; the rest by the lemma of
each group. -/
theorem dispatchKeys : Obligations.DispatchKeys := by
  refine ⟨fun n1 n2 n3 => ⟨rfl, rfl, rfl, rfl, rfl, rfl, rfl, rfl, rfl, rfl⟩, fun n1 n2 n3 => ⟨rfl, rfl⟩,
    fun n0 n1 m1 n2 n3 h => dispatchVariant_n1_irrelevant h n1 m1 n2 n3,
    ⟨_, _, _, _, dispatchVariant_group0_reads_n1⟩, fun n1 m1 n2 m2 n3 => ?_,
    fun n0 h => dispatchVariant_two_variants h⟩
  rw [dispatchVariant_group8, dispatchVariant_group8]

end Sys2Proof
end

section
/-! PROOFS. Group 0x0, keyed on the whole 12-bit tail (R59, R100): the group's key and tail of a word, the tail's nibbles,
and the ordered dispatch read as a test of the address they make up. -/

namespace Sys2Proof

/-- The quartet of a group's key before a 12-bit tail (R51): the key, then the tail's three nibbles. -/
theorem extractNibbles_append_tail (n0 : Nibble) (a : Address) :
    extractNibbles (firstByte (n0 ++ a)) (secondByte (n0 ++ a)) =
      ⟨n0, a.extractLsb' 8 4, a.extractLsb' 4 4, a.extractLsb' 0 4⟩ := by
  rw [extractNibbles_bytes, BitVec.extractLsb'_append_eq_left, BitVec.extractLsb'_append_eq_of_add_le (by decide),
    BitVec.extractLsb'_append_eq_of_add_le (by decide), BitVec.extractLsb'_append_eq_of_add_le (by decide)]

/-- Two addresses made of nibbles are equal only when made of the same nibbles (R53). -/
theorem addressFromNibbles_inj {n1 n2 n3 m1 m2 m3 : Nibble} :
    addressFromNibbles n1 n2 n3 = addressFromNibbles m1 m2 m3 ↔ n1 = m1 ∧ n2 = m2 ∧ n3 = m3 := by
  constructor
  · intro h
    have hval := congrArg BitVec.toNat h
    simp only [addressFromNibbles_toNat] at hval
    simp only [← BitVec.toNat_inj]
    omega
  · rintro ⟨rfl, rfl, rfl⟩
    rfl

/-- Group 0x0 tests the address of its tail, `Return` before `ClearScreen` before the fallback (R59, R100). -/
theorem dispatchGroup0_eq_ite_address (n1 n2 n3 : Nibble) :
    dispatchGroup0 n1 n2 n3 =
      if addressFromNibbles n1 n2 n3 = 0x0EE#12 then .ret
      else if addressFromNibbles n1 n2 n3 = 0x0E0#12 then .clearScreen
      else .callMachineRoutine := by
  have hret : 0x0EE#12 = addressFromNibbles 0x0#4 0xE#4 0xE#4 := by decide
  have hclear : 0x0E0#12 = addressFromNibbles 0x0#4 0xE#4 0x0#4 := by decide
  simp only [dispatchGroup0, hret, hclear, addressFromNibbles_inj]

/-- A quartet of group 0x0 always decodes, to the variant its tail selects (R100). -/
theorem decodeQuartet_group0 (n1 n2 n3 : Nibble) :
    decodeQuartet ⟨0x0#4, n1, n2, n3⟩ = .ok (assembleOperands (dispatchGroup0 n1 n2 n3) ⟨0x0#4, n1, n2, n3⟩) :=
  decodeQuartet_of_dispatch_some rfl

/-- Settles O13: the word's tail is the address of its nibbles, and group 0x0 dispatches by that address. -/
theorem groupZeroPriority : Obligations.GroupZeroPriority := by
  intro a
  have htail : addressFromNibbles (a.extractLsb' 8 4) (a.extractLsb' 4 4) (a.extractLsb' 0 4) = a :=
    (addressFromNibbles_fields a).trans BitVec.extractLsb'_eq_self
  rw [decodeWord, decode, extractNibbles_append_tail, decodeQuartet_group0, dispatchGroup0_eq_ite_address, htail]
  split_ifs with hret hclear
  · rfl
  · rfl
  · simp only [assembleOperands, htail]

end Sys2Proof
end

section
/-! PROOFS. Presenting two bytes always completes, and what it leaves on the ports is the word's own: a decode failure is a
result like any other (R17, R152). -/

namespace Sys2Proof.Machine

/-- The state after two bytes are presented and decoded, with `rest` still to come. -/
def State.afterPresent (s : State) (b0 b1 : Byte) (rest : List Input) : State :=
  ((s.setInputs rest).presentWord (wordOfBytes b0 b1)).settled

section
variable (s : State) (b0 b1 : Byte) (rest : List Input)

@[simp] theorem State.afterPresent_opIn : (s.afterPresent b0 b1 rest).opIn = wordOfBytes b0 b1 := by
  simp [State.afterPresent]
@[simp] theorem State.afterPresent_out : (s.afterPresent b0 b1 rest).out = portImage (wordOfBytes b0 b1) := rfl
@[simp] theorem State.afterPresent_offIn : (s.afterPresent b0 b1 rest).offIn = s.offIn := by simp [State.afterPresent]
@[simp] theorem State.afterPresent_offErr : (s.afterPresent b0 b1 rest).offErr = decide (4095 < s.offIn.toNat) :=
  State.settled_offErr _
@[simp] theorem State.afterPresent_mem : (s.afterPresent b0 b1 rest).mem = s.mem := by simp [State.afterPresent]
@[simp] theorem State.afterPresent_inputs : (s.afterPresent b0 b1 rest).inputs = rest := by simp [State.afterPresent]

end

/-- `off_err` after a presentation depends on `off_in` alone, not on what is presented (R27). -/
theorem State.afterPresent_offErr_congr {s t : State} (h : s.offIn = t.offIn) (b0 b1 c0 c1 : Byte) (l m : List Input) :
    (s.afterPresent b0 b1 l).offErr = (t.afterPresent c0 c1 m).offErr := by
  rw [State.afterPresent_offErr, State.afterPresent_offErr, h]

/-- Two bytes presented are always decoded, whatever their word and the state they meet (R17, R152). -/
theorem step_present {s : State} {b0 b1 : Byte} {rest : List Input} (hs : s.inputs = .present [b0, b1] :: rest) :
    step s = .next (s.afterPresent b0 b1 rest) := by
  refine step_of_takeInput ?_
  simp only [takeInput, hs, applyInput, presentBytes]

/-- Settles O33: the failing word's step completes like any other and leaves memory, `off_in` and the second presentation
alone, and these with the second word are all that the second step's outputs are taken from. -/
theorem failureIsAResult : Obligations.FailureIsAResult := by
  intro s b0 b1 c0 c1 rest f hs _
  have hfirst := step_present hs
  have hsecond := step_present (s.afterPresent_inputs b0 b1 (.present [c0, c1] :: rest))
  have halone := step_present (s.setInputs_inputs (.present [c0, c1] :: rest))
  exact ⟨_, _, _, hfirst, hsecond, halone, rfl, by simp, by simp, by simp,
    State.afterPresent_offErr_congr (s.afterPresent_offIn b0 b1 _) c0 c1 c0 c1 rest rest⟩

end Sys2Proof.Machine
end

section
/-! PROOFS. Where a step can fault: no meaning and no settling does, and of the inputs only the constructor call does,
exactly above 4095 (R57, R150, R154). -/

namespace Sys2Proof.Machine

/-- Every meaning completes, and moves nothing but the result ports (R4, R101 to R138). -/
theorem exec_drives_out (i : Instr) (s : State) : ∃ o, exec i s = .next { s with out := o } := by
  cases i <;> exact ⟨_, rfl⟩

/-- The constructor call above 4095 is the range error, with the number it was called with (R57, R154, D10). -/
theorem callFromOffset_above {n : Nat} (s : State) (h : 4095 < n) :
    callFromOffset n s = .fault (.constructionRangeError n) := by
  simp only [callFromOffset, addressFromOffset, gt_iff_lt, h, if_true]

/-- The constructor call up to 4095 puts its number on `off_in` (R57). -/
theorem callFromOffset_within {n : Nat} (s : State) (h : n ≤ 4095) :
    callFromOffset n s = .next (s.driveOffIn (offsetOfAddress (BitVec.ofNat 12 n))) := by
  simp only [callFromOffset, addressFromOffset, gt_iff_lt, Nat.not_lt.2 h, if_false]

/-- The constructor call faults only above 4095, and only with the range error (R154). -/
theorem callFromOffset_fault {n : Nat} {s : State} {f : Fault} (h : callFromOffset n s = .fault f) :
    4095 < n ∧ f = .constructionRangeError n := by
  rcases Nat.lt_or_ge 4095 n with hn | hn
  · exact ⟨hn, Host.Outcome.fault.inj (h.symm.trans (callFromOffset_above s hn))⟩
  · exact absurd (h.symm.trans (callFromOffset_within s hn)) nofun

/-- Of the inputs only the constructor call can fault: the others go on or are refused (R150). -/
theorem applyInput_fault {i : Input} {s : State} {f : Fault} (h : applyInput i s = .fault f) :
    ∃ n, i = .callOffset n ∧ callFromOffset n s = .fault f := by
  cases i with
  | callOffset n => exact ⟨n, rfl, h⟩
  | driveOffset n => exact absurd h nofun
  | present _ | window _ | store _ _ | loadRom _ _ =>
    simp only [applyInput, presentBytes, presentWindow, storeInput, loadInput] at h
    split at h <;> exact absurd h nofun

/-- Taking an input faults only on a constructor call. -/
theorem takeInput_fault {s : State} {f : Fault} (h : takeInput s = .fault f) :
    ∃ n rest, s.inputs = .callOffset n :: rest ∧ callFromOffset n (s.setInputs rest) = .fault f := by
  unfold takeInput at h
  split at h
  · exact absurd h nofun
  · next i rest hs =>
    obtain ⟨n, rfl, hcall⟩ := applyInput_fault h
    exact ⟨n, rest, hs, hcall⟩

/-- A step faults exactly when taking its input does: the block itself always completes (R17, R150). -/
theorem step_fault_iff {s : State} {f : Fault} : step s = .fault f ↔ takeInput s = .fault f := by
  cases htake : takeInput s with
  | next t => simp only [step_of_takeInput htake, reduceCtorEq]
  | fault g => simp only [step, htake]
  | refused r => simp only [step, htake]

/-- A step that takes a constructor call above 4095 is the range error (R57, R154). -/
theorem step_callOffset_above {s : State} {n : Nat} {rest : List Input} (hs : s.inputs = .callOffset n :: rest)
    (hn : 4095 < n) : step s = .fault (.constructionRangeError n) := by
  refine step_fault_iff.2 ?_
  simp only [takeInput, hs, applyInput, callFromOffset_above _ hn]

/-- Settles O49: the meanings complete, a failure has one case, and a step's fault is that of the constructor call. -/
theorem twoErrorKindsOnly : Obligations.TwoErrorKindsOnly := by
  refine ⟨fun i s => ?_, fun b0 b1 f _ => ?_, fun s f hf => ?_, fun s n rest hs hn => ⟨_, step_callOffset_above hs hn⟩⟩
  · obtain ⟨o, ho⟩ := exec_drives_out i s
    exact ⟨_, ho⟩
  · cases f with
    | unrecognized q => exact ⟨q, rfl⟩
  · obtain ⟨n, rest, hs, hcall⟩ := takeInput_fault (step_fault_iff.1 hf)
    obtain ⟨hn, hfault⟩ := callFromOffset_fault hcall
    exact ⟨n, n, rest, hs, hn, hfault⟩

end Sys2Proof.Machine
end

section
/-! PROOFS. The words of the format table (R52), shape by shape, and what each decodes to; from them the round trip that
begins with an instruction (R69) and the keyed groups' maps (R111, R126, R129). -/

namespace Sys2Proof

/-! ## A byte and an address as their nibbles -/

/-- A byte is its two nibbles in order. -/
theorem nibbles_append_byte (k : Byte) : k.extractLsb' 4 4 ++ k.extractLsb' 0 4 = k := by
  rw [BitVec.extractLsb'_append_extractLsb'_eq_extractLsb' (by decide)]
  exact BitVec.extractLsb'_eq_self

/-- A constant is rebuilt from its own nibbles (R70, T3). -/
theorem const8FromNibbles_self (k : Const8) : const8FromNibbles (k.extractLsb' 4 4) (k.extractLsb' 0 4) = k :=
  (const8FromNibbles_fields k).trans BitVec.extractLsb'_eq_self

/-- An address is rebuilt from its own nibbles (R70, T2). -/
theorem addressFromNibbles_self (a : Address) :
    addressFromNibbles (a.extractLsb' 8 4) (a.extractLsb' 4 4) (a.extractLsb' 0 4) = a :=
  (addressFromNibbles_fields a).trans BitVec.extractLsb'_eq_self

/-- Settles O5: a nibble is its operand unchanged, and the two self-assembly laws. -/
theorem operandRoundTrips : Obligations.OperandRoundTrips :=
  ⟨fun _ => ⟨rfl, rfl⟩, addressFromNibbles_self, const8FromNibbles_self⟩

/-! ## The words of each shape -/

/-- A word of four nibbles decodes as their quartet (R52, formats XY and XYH). -/
theorem decodeWord_nibbles (n0 n1 n2 n3 : Nibble) :
    decodeWord (n0 ++ n1 ++ n2 ++ n3) = decodeQuartet ⟨n0, n1, n2, n3⟩ :=
  decodeWord_toWord ⟨n0, n1, n2, n3⟩

/-- A word of a key and a tail of twelve bits decodes as the key and the tail's nibbles (R52, format A). -/
theorem decodeWord_address (n0 : Nibble) (a : Address) :
    decodeWord (n0 ++ a) = decodeQuartet ⟨n0, a.extractLsb' 8 4, a.extractLsb' 4 4, a.extractLsb' 0 4⟩ :=
  congrArg decodeQuartet (extractNibbles_append_tail n0 a)

/-- A word of two nibbles and a byte is that of the two nibbles and the byte's nibbles (R52, formats XK and X). -/
theorem append_byte_eq_append_nibbles (n0 x : Nibble) (k : Byte) :
    n0 ++ x ++ k = n0 ++ x ++ k.extractLsb' 4 4 ++ k.extractLsb' 0 4 := by
  have hsplit : n0 ++ x ++ k = n0 ++ x ++ (k.extractLsb' 4 4 ++ k.extractLsb' 0 4) := by rw [nibbles_append_byte]
  rw [hsplit, BitVec.append_assoc']
  rfl

/-- A word of two nibbles and a byte decodes as the two nibbles and the byte's nibbles (R52, formats XK and X). -/
theorem decodeWord_byte (n0 x : Nibble) (k : Byte) :
    decodeWord (n0 ++ x ++ k) = decodeQuartet ⟨n0, x, k.extractLsb' 4 4, k.extractLsb' 0 4⟩ := by
  rw [append_byte_eq_append_nibbles]
  exact decodeWord_nibbles _ _ _ _

/-- Outside group 0x0, a word with an address decodes to the instruction of its key's group with that address (R58). -/
theorem decodeWord_address_of_dispatch {n0 : Nibble} {v : Variant} {f : Address → Instr} (a : Address)
    (hv : ∀ n1 n2 n3, dispatchVariant ⟨n0, n1, n2, n3⟩ = some v)
    (hf : ∀ n1 n2 n3, assembleOperands v ⟨n0, n1, n2, n3⟩ = f (addressFromNibbles n1 n2 n3)) :
    decodeWord (n0 ++ a) = .ok (f a) := by
  rw [decodeWord_address, decodeQuartet_of_dispatch_some (hv _ _ _), hf, addressFromNibbles_self]

/-- A word with a register index and a constant decodes to the instruction of its key's group with both (R58). -/
theorem decodeWord_constant_of_dispatch {n0 : Nibble} {v : Variant} {f : Var → Const8 → Instr} (x : Var) (k : Const8)
    (hv : ∀ n1 n2 n3, dispatchVariant ⟨n0, n1, n2, n3⟩ = some v)
    (hf : ∀ n1 n2 n3, assembleOperands v ⟨n0, n1, n2, n3⟩ = f n1 (const8FromNibbles n2 n3)) :
    decodeWord (n0 ++ x ++ k) = .ok (f x k) := by
  rw [decodeWord_byte, decodeQuartet_of_dispatch_some (hv _ _ _), hf, const8FromNibbles_self]

/-- Group 0xE is keyed on the tail (R58, R126). -/
theorem dispatchVariant_groupE (n1 : Nibble) (t : Byte) :
    dispatchVariant ⟨0xE, n1, t.extractLsb' 4 4, t.extractLsb' 0 4⟩ = dispatchGroupE t :=
  congrArg dispatchGroupE (nibbles_append_byte t)

/-- Group 0xF is keyed on the tail (R58, R129). -/
theorem dispatchVariant_groupF (n1 : Nibble) (t : Byte) :
    dispatchVariant ⟨0xF, n1, t.extractLsb' 4 4, t.extractLsb' 0 4⟩ = dispatchGroupF t :=
  congrArg dispatchGroupF (nibbles_append_byte t)

/-- A word with a register index and a tail that is a key decodes to the instruction of that key with the register
(R126, R129). -/
theorem decodeWord_tail_of_dispatch {n0 : Nibble} {t : Byte} {v : Variant} {f : Var → Instr} (x : Var)
    (hv : dispatchVariant ⟨n0, x, t.extractLsb' 4 4, t.extractLsb' 0 4⟩ = some v)
    (hf : ∀ q, assembleOperands v q = f q.n1) : decodeWord (n0 ++ x ++ t) = .ok (f x) := by
  rw [decodeWord_byte, decodeQuartet_of_dispatch_some hv, hf]

/-- Settles O8, variant by variant: group 0x0 by its priority, the address and constant formats by reassembling the
operand, and the others by the quartet of their nibbles, whose fixed digits select their row. -/
theorem decodeOfEncode : Obligations.DecodeOfEncode := by
  intro i hwf
  cases i with
  | ret => decide
  | clearScreen => decide
  | callMachineRoutine a =>
    simp only [Instr.wellFormed, Bool.and_eq_true, bne_iff_ne] at hwf
    obtain ⟨hclear, hret⟩ := hwf
    rw [encode, groupZeroPriority, if_neg hret, if_neg hclear]
  | jump a | callSubroutine a | setIndex a | jumpWithOffset a =>
    exact decodeWord_address_of_dispatch a (fun _ _ _ => rfl) (fun _ _ _ => rfl)
  | skipIfEqualConst x k | skipIfNotEqualConst x k | setConst x k | addConst x k | random x k =>
    exact decodeWord_constant_of_dispatch x k (fun _ _ _ => rfl) (fun _ _ _ => rfl)
  | skipIfEqual x y | set x y | or x y | and x y | xor x y | addReg x y | subReg x y | shiftRight x y
  | subRegReverse x y | shiftLeft x y | skipIfNotEqual x y =>
    exact decodeWord_nibbles _ x y _
  | draw x y h => exact decodeWord_nibbles _ x y h
  | keyPressed x | keyNotPressed x =>
    exact decodeWord_tail_of_dispatch x (dispatchVariant_groupE x _) (fun _ => rfl)
  | getDelayTimer x | waitForKey x | setDelayTimer x | setSoundTimer x | addToIndex x | setIndexToSprite x | storeBcd x
  | storeRegisters x | loadRegisters x =>
    exact decodeWord_tail_of_dispatch x (dispatchVariant_groupF x _) (fun _ => rfl)

/-! ## The keyed groups -/

/-- The keys of group 0x8 that select nothing (R63, R111; keys by D7). -/
theorem dispatchGroup8_eq_none_iff (n3 : Nibble) :
    dispatchGroup8 n3 = none ↔ n3 ∈ [0x8#4, 0x9#4, 0xA#4, 0xB#4, 0xC#4, 0xD#4, 0xF#4] := by
  decide +revert

/-- The tails of group 0xE that select nothing (R63, R126; pairing by D9). -/
theorem dispatchGroupE_eq_none_iff (t : Byte) : dispatchGroupE t = none ↔ t ∉ [0x9E#8, 0xA1#8] := by
  unfold dispatchGroupE
  split <;> simp_all

/-- The tails of group 0xF that select nothing (R63, R129; names by D8). -/
theorem dispatchGroupF_eq_none_iff (t : Byte) :
    dispatchGroupF t = none ↔ t ∉ [0x07#8, 0x0A#8, 0x15#8, 0x18#8, 0x1E#8, 0x29#8, 0x33#8, 0x55#8, 0x65#8] := by
  unfold dispatchGroupF
  split <;> simp_all

/-- A pattern that asks for a zero last nibble selects nothing beside another one (R58, R63). -/
theorem dispatchIfZero_eq_none_iff (n3 : Nibble) (v : Variant) : dispatchIfZero n3 v = none ↔ n3 ≠ 0x0#4 := by
  simp [dispatchIfZero]

/-- A word whose quartet the dispatch does not accept fails with that quartet (R151). -/
theorem decodeWord_nibbles_fail {n0 n1 n2 n3 : Nibble} (h : dispatchVariant ⟨n0, n1, n2, n3⟩ = none) :
    decodeWord (n0 ++ n1 ++ n2 ++ n3) = .fail (.unrecognized ⟨n0, n1, n2, n3⟩) :=
  (decodeWord_nibbles n0 n1 n2 n3).trans (decodeQuartet_of_dispatch_none h)

/-- Settles O15: nine keys are the encodings of their variants, the other seven select nothing. -/
theorem groupEightMap : Obligations.GroupEightMap := fun x y =>
  ⟨decodeOfEncode (.set x y) rfl, decodeOfEncode (.or x y) rfl, decodeOfEncode (.and x y) rfl,
    decodeOfEncode (.xor x y) rfl, decodeOfEncode (.addReg x y) rfl, decodeOfEncode (.subReg x y) rfl,
    decodeOfEncode (.shiftRight x y) rfl, decodeOfEncode (.subRegReverse x y) rfl, decodeOfEncode (.shiftLeft x y) rfl,
    fun h hh => decodeWord_nibbles_fail ((dispatchGroup8_eq_none_iff h).2 hh)⟩

/-- Settles O16: eleven tails are the encodings of their variants, every other tail selects nothing. -/
theorem tailKeyedGroups : Obligations.TailKeyedGroups := fun x =>
  ⟨decodeOfEncode (.keyPressed x) rfl, decodeOfEncode (.keyNotPressed x) rfl, decodeOfEncode (.getDelayTimer x) rfl,
    decodeOfEncode (.waitForKey x) rfl, decodeOfEncode (.setDelayTimer x) rfl, decodeOfEncode (.setSoundTimer x) rfl,
    decodeOfEncode (.addToIndex x) rfl, decodeOfEncode (.setIndexToSprite x) rfl, decodeOfEncode (.storeBcd x) rfl,
    decodeOfEncode (.storeRegisters x) rfl, decodeOfEncode (.loadRegisters x) rfl,
    fun n2 n3 h9E hA1 => decodeWord_nibbles_fail ((dispatchGroupE_eq_none_iff (n2 ++ n3)).2 (by simp [h9E, hA1])),
    fun n2 n3 h => decodeWord_nibbles_fail ((dispatchGroupF_eq_none_iff (n2 ++ n3)).2 h)⟩

end Sys2Proof
end

section
/-! PROOFS. The invariant: after every step, from any state, the outputs are settled on the input ports (R10, R23, R27),
and no input takes the memory region out of its canonical form or its bounds (R30). -/

namespace Sys2Proof.Machine

/-! ## Settled outputs -/

/-- A step that answers a next state takes an input and ends settled. -/
theorem step_next_settled {s s' : State} (h : step s = .next s') : ∃ t, takeInput s = .next t ∧ s' = t.settled := by
  obtain ⟨t, htake, -⟩ := step_next h
  exact ⟨t, htake, Host.Outcome.next.inj (h.symm.trans (step_of_takeInput htake))⟩

/-- Every result port of a settled state is the port image of `op_in` (R25, R26). -/
theorem State.settled_decodeSettled (s : State) : s.settled.DecodeSettled := by
  simp [State.DecodeSettled]

/-- Up to 4095 the low twelve bits of an offset are the whole offset (R27). -/
theorem lowTwelve_toNat {n : BitVec Config.offsetBits} (h : n.toNat ≤ 4095) : (n.extractLsb' 0 12).toNat = n.toNat := by
  rw [BitVec.extractLsb'_toNat, Nat.shiftRight_zero]
  exact Nat.mod_eq_of_lt (by omega)

/-- `off_addr` after settling, up to 4095 (R27). -/
theorem State.settleOffset_offAddr_of_le {s : State} (h : s.offIn.toNat ≤ 4095) :
    s.settleOffset.offAddr = s.offIn.extractLsb' 0 12 := by
  obtain ⟨-, hs⟩ | ⟨habove, -⟩ := s.settleOffset_cases
  · rw [hs]
  · omega

/-- The offset ports of a settled state follow `off_in` (R27). -/
theorem State.settled_offsetSettled (s : State) : s.settled.OffsetSettled := by
  refine ⟨by simp, fun hok => ?_⟩
  have hle : s.offIn.toNat ≤ 4095 := by simpa using hok
  rw [State.settled_offAddr, State.settled_offIn, State.settleOffset_offAddr_of_le hle, lowTwelve_toNat hle]

/-- Settles O34: a step ends in a settled state. -/
theorem outputsFollowInputs : Obligations.OutputsFollowInputs := by
  intro s s' h
  obtain ⟨t, -, rfl⟩ := step_next_settled h
  exact ⟨t.settled_decodeSettled, t.settled_offsetSettled⟩

/-! ## The memory region -/

/-- Validity of the region is a matter of the memory list alone. -/
theorem State.MemoryValid.congr {s t : State} (hs : s.MemoryValid) (h : t.mem = s.mem) : t.MemoryValid := by
  simpa only [State.MemoryValid, h] using hs

/-- What an offset holds after a store: the byte stored there, or what it held before. -/
theorem Memory.stored?_put (m : Memory) (a d : Nat) (b : Byte) :
    Memory.stored? (Memory.put m a b) d = if d = a then some b else Memory.stored? m d := by
  split_ifs with hd
  · rw [hd, Memory.stored?_put_same]
  · exact Memory.stored?_put_other m b hd

/-- What an offset holds after a load: the byte of the run that lands there, or what it held before (R37). -/
theorem Memory.stored?_putAll (m : Memory) (base d : Nat) (bs : List Byte) :
    Memory.stored? (Memory.putAll m base bs) d =
      if base ≤ d ∧ d < base + bs.length then bs[d - base]? else Memory.stored? m d := by
  induction bs generalizing m base with
  | nil => rw [Memory.putAll, if_neg (by simp)]
  | cons b bs ih =>
    rw [Memory.putAll, ih, Memory.stored?_put]
    rcases Nat.lt_trichotomy d base with hlt | rfl | hgt
    · rw [if_neg (by omega), if_neg (by omega), if_neg (by omega)]
    · simp
    · have hshift : d - base = d - (base + 1) + 1 := by omega
      have hrun : base + 1 ≤ d ∧ d < base + 1 + bs.length ↔ base ≤ d ∧ d < base + (b :: bs).length := by
        rw [List.length_cons]
        omega
      rw [hshift, List.getElem?_cons_succ, if_neg (by omega : ¬d = base)]
      simp only [hrun]

/-- A store inside the region keeps it valid (R39). -/
theorem State.MemoryValid.storeByte {s : State} (hs : s.MemoryValid) {a : Nat} (b : Byte)
    (ha : a < Config.regionBytes) : (s.storeByte a b).MemoryValid := by
  obtain ⟨hwf, hin⟩ := hs
  refine ⟨Memory.wf_put hwf a b, fun d hd => ?_⟩
  rw [State.storeByte_mem, Memory.stored?_put] at hd
  split_ifs at hd with heq
  · rwa [heq]
  · exact hin d hd

/-- A load inside the region keeps it valid (R37). -/
theorem State.MemoryValid.loadBytes {s : State} (hs : s.MemoryValid) {base : Nat} {bytes : List Byte}
    (hb : ∀ k, k < bytes.length → base + k < Config.regionBytes) : (s.loadBytes base bytes).MemoryValid := by
  obtain ⟨hwf, hin⟩ := hs
  refine ⟨Memory.wf_putAll hwf base bytes, fun d hd => ?_⟩
  rw [State.loadBytes_mem, Memory.stored?_putAll] at hd
  split_ifs at hd with hrun
  · have := hb (d - base) (by omega)
    omega
  · exact hin d hd

/-- No input takes the region out of its canonical form or its bounds (R30). -/
theorem applyInput_keeps_memoryValid {i : Input} {s t : State} (hs : s.MemoryValid) (h : applyInput i s = .next t) :
    t.MemoryValid := by
  cases i with
  | present bytes =>
    obtain ⟨_, _, _, rfl⟩ := presentBytes_next h
    exact hs.congr rfl
  | window a =>
    obtain ⟨_, rfl⟩ := presentWindow_next h
    exact hs.congr rfl
  | callOffset n =>
    obtain ⟨_, rfl⟩ := callFromOffset_next h
    exact hs.congr rfl
  | driveOffset n =>
    cases h
    exact hs.congr rfl
  | store a b =>
    obtain ⟨ha, rfl⟩ := storeInput_next h
    exact hs.storeByte b ha
  | loadRom base bytes =>
    obtain ⟨hb, rfl⟩ := loadInput_next h
    exact hs.loadBytes hb

/-- The surroundings' part of a step keeps the region valid. -/
theorem takeInput_keeps_memoryValid {s t : State} (hs : s.MemoryValid) (h : takeInput s = .next t) : t.MemoryValid := by
  unfold takeInput at h
  split at h
  · cases h
    exact hs
  · next rest _ =>
    exact applyInput_keeps_memoryValid (s := s.setInputs rest) (hs.congr rfl) h

/-- Settles O35: the outputs are settled after any step, and every input keeps the region valid. -/
theorem stepKeepsInvariant : Obligations.StepKeepsInvariant := by
  intro s s' hs h
  obtain ⟨t, htake, rfl⟩ := step_next_settled h
  exact ⟨t.settled_decodeSettled, t.settled_offsetSettled,
    (takeInput_keeps_memoryValid hs.memoryValid htake).congr t.settled_mem⟩

/-- Settles O36: the ports at reset are the image of the word 0x0000 and of the offset 0, and nothing is stored. -/
theorem resetMeetsInvariant : Obligations.ResetMeetsInvariant := by
  refine ⟨?_, ⟨?_, fun _ => ?_⟩, rfl, fun a ha => ?_⟩
  · show State.reset.out = portImage 0x0000#16
    decide
  · simp [State.reset]
  · simp [State.reset]
  · exact absurd ha nofun

/-- A state that meets the invariant shows its settled values already, unless `off_err = 1`. -/
theorem State.settled_eq_self {s : State} (hs : s.Inv) (herr : s.offErr = false) : s.settled = s := by
  obtain ⟨hdec, ⟨hoff, haddr⟩, -⟩ := hs
  have hle : s.offIn.toNat ≤ 4095 := by simpa [herr] using hoff
  have hlow : s.offIn.extractLsb' 0 12 = s.offAddr :=
    BitVec.eq_of_toNat_eq ((lowTwelve_toNat hle).trans (haddr herr).symm)
  obtain ⟨-, hsettle⟩ | ⟨habove, -⟩ := s.settleOffset_cases
  · rw [State.settled, hsettle, hlow, ← herr, ← hdec]
  · omega

/-- Settles O42: with no input the step only settles, and a settled state is settled already. -/
theorem idleStepIsIdentity : Obligations.IdleStepIsIdentity := by
  intro s hs hnone herr
  have htake : takeInput s = .next s := by simp only [takeInput, hnone]
  rw [step_of_takeInput htake, State.settled_eq_self hs herr]

end Sys2Proof.Machine
end

section
/-! PROOFS. The staged dispatch against the arms of R61: it selects a variant exactly when the arm of the variant holds and
the payload assembled for it is one a word can stand for. -/

namespace Sys2Proof

/-! ## Quartets and words -/

/-- Two quartets with one word are equal (R51). -/
theorem Quartet.toWord_inj {p q : Quartet} : p.toWord = q.toWord ↔ p = q := by
  refine ⟨fun h => ?_, congrArg _⟩
  rw [← extractNibbles_toWord p, h, extractNibbles_toWord]

/-- Masking a word masks its nibbles. -/
theorem Quartet.toWord_and (p m : Quartet) :
    p.toWord &&& m.toWord = (⟨p.n0 &&& m.n0, p.n1 &&& m.n1, p.n2 &&& m.n2, p.n3 &&& m.n3⟩ : Quartet).toWord := by
  refine BitVec.eq_of_getLsbD_eq fun i hi => ?_
  simp only [Quartet.toWord, BitVec.getLsbD_and, BitVec.getLsbD_append]
  interval_cases i <;> simp

/-- Every word is that of its quartet (R51). -/
theorem exists_toWord_eq (w : Word) : ∃ q : Quartet, q.toWord = w :=
  ⟨_, (toWord_extractNibbles (firstByte w) (secondByte w)).trans (wordOfBytes_bytes w)⟩

/-- A word decodes to an instruction when the dispatch selects a variant that assembles to it (R60). -/
theorem decodeQuartet_eq_ok_iff {q : Quartet} {i : Instr} :
    decodeQuartet q = .ok i ↔ ∃ v, dispatchVariant q = some v ∧ assembleOperands v q = i := by
  cases hv : dispatchVariant q with
  | some v => simp [decodeQuartet_of_dispatch_some hv]
  | none => simp [decodeQuartet_of_dispatch_none hv]

/-- A word fails when the dispatch selects nothing, and then with its own quartet (R60, R151). -/
theorem decodeQuartet_eq_fail_iff {q : Quartet} {f : DecodeFailure} :
    decodeQuartet q = .fail f ↔ dispatchVariant q = none ∧ f = .unrecognized q := by
  cases hv : dispatchVariant q with
  | some v => simp [decodeQuartet_of_dispatch_some hv]
  | none => simp [decodeQuartet_of_dispatch_none hv, eq_comm]

/-! ## The arms of R61 -/

/-- The arm of a variant: the arms stand in tag order. -/
def Variant.arm (v : Variant) : ReferenceArm := referenceArms[v.tag.toNat]'(by cases v <;> decide)

theorem Variant.arm_mem (v : Variant) : v.arm ∈ referenceArms := List.getElem_mem _

@[simp] theorem Variant.arm_result (v : Variant) : v.arm.result = v := by cases v <;> rfl

/-- Every arm is that of its variant: no variant has two. -/
theorem arm_result_arm : ∀ r ∈ referenceArms, r.result.arm = r := by decide

/-- Only the fallback of group 0x0 can assemble a payload no word stands for (R103(c)). -/
theorem wellFormed_assembleOperands (v : Variant) (q : Quartet) :
    (assembleOperands v q).wellFormed = true ↔
      (v = .callMachineRoutine → addressFromNibbles q.n1 q.n2 q.n3 ≠ 0x0E0#12 ∧
        addressFromNibbles q.n1 q.n2 q.n3 ≠ 0x0EE#12) := by
  cases v <;> simp [assembleOperands, Instr.wellFormed]

/-- Group 0x8 selects the variant whose arm tests the key (R61, R111). -/
theorem arm_of_dispatchGroup8 (n3 : Nibble) :
    ∀ v ∈ dispatchGroup8 n3, v.arm = ⟨0x8, none, none, some n3, v⟩ := by
  decide +revert

/-- Group 0xE selects the variant whose arm tests the tail (R61, R126). -/
theorem arm_of_dispatchGroupE (n2 n3 : Nibble) :
    ∀ v ∈ dispatchGroupE (tailByte n2 n3), v.arm = ⟨0xE, none, some n2, some n3, v⟩ := by
  decide +revert

/-- Group 0xF selects the variant whose arm tests the tail (R61, R129). -/
theorem arm_of_dispatchGroupF (n2 n3 : Nibble) :
    ∀ v ∈ dispatchGroupF (tailByte n2 n3), v.arm = ⟨0xF, none, some n2, some n3, v⟩ := by
  decide +revert

/-- A pattern that asks for a zero last nibble selects its variant beside no other (R58). -/
theorem dispatchIfZero_eq_some_iff (n3 : Nibble) (u v : Variant) :
    dispatchIfZero n3 u = some v ↔ n3 = 0x0#4 ∧ u = v := by
  simp [dispatchIfZero]

/-- An arm holds of a quartet that carries each digit it tests (R61). -/
theorem ReferenceArm.holds_iff (r : ReferenceArm) (q : Quartet) :
    r.holds q = true ↔ r.n0 = q.n0 ∧ (∀ n ∈ r.n1, n = q.n1) ∧ (∀ n ∈ r.n2, n = q.n2) ∧ (∀ n ∈ r.n3, n = q.n3) := by
  simp [ReferenceArm.holds, Option.all_eq_true, and_assoc]

/-- The tail of `Return` by its nibbles (R101). -/
theorem returnTail_eq : 0x0EE#12 = addressFromNibbles 0x0#4 0xE#4 0xE#4 := by decide

/-- The tail of `ClearScreen` by its nibbles (R102). -/
theorem clearScreenTail_eq : 0x0E0#12 = addressFromNibbles 0x0#4 0xE#4 0x0#4 := by decide

/-- What group 0x0 selects has an arm that holds, and assembles to a payload a word can stand for (R59, R100). -/
theorem arm_holds_of_group0 (n1 n2 n3 : Nibble) :
    (dispatchGroup0 n1 n2 n3).arm.holds ⟨0x0, n1, n2, n3⟩ = true ∧
      (assembleOperands (dispatchGroup0 n1 n2 n3) ⟨0x0, n1, n2, n3⟩).wellFormed = true := by
  rw [wellFormed_assembleOperands, dispatchGroup0_eq_ite_address]
  split_ifs with h h'
  · obtain ⟨rfl, rfl, rfl⟩ := addressFromNibbles_inj.1 (h.trans returnTail_eq)
    exact ⟨rfl, nofun⟩
  · obtain ⟨rfl, rfl, rfl⟩ := addressFromNibbles_inj.1 (h'.trans clearScreenTail_eq)
    exact ⟨rfl, nofun⟩
  · exact ⟨rfl, fun _ => ⟨h', h⟩⟩

/-- An arm that tests digits of the quartet holds of it. -/
theorem holds_of_arm_eq {v : Variant} {r : ReferenceArm} {q : Quartet} (h : v.arm = r) (hr : r.holds q = true) :
    v.arm.holds q = true := by
  rw [h, hr]

/-- What a group other than 0x0 selects assembles to a payload a word can stand for. -/
theorem wellFormed_of_not_fallback {v : Variant} (q : Quartet) (h : v.arm.n0 ≠ 0x0#4) :
    (assembleOperands v q).wellFormed = true := by
  refine (wellFormed_assembleOperands v q).2 fun hv => ?_
  subst hv
  exact absurd rfl h

/-- What the dispatch selects has an arm that holds, and assembles to a payload a word can stand for. -/
theorem arm_holds_of_dispatch {q : Quartet} {v : Variant} (h : dispatchVariant q = some v) :
    v.arm.holds q = true ∧ (assembleOperands v q).wellFormed = true := by
  obtain ⟨n0, n1, n2, n3⟩ := q
  by_cases hgroup : n0 = 0x0#4
  · subst hgroup
    obtain rfl := Option.some.inj h
    exact arm_holds_of_group0 n1 n2 n3
  suffices hholds : v.arm.holds ⟨n0, n1, n2, n3⟩ = true by
    have hn0 := ((ReferenceArm.holds_iff _ _).1 hholds).1
    exact ⟨hholds, wellFormed_of_not_fallback _ (hn0 ▸ hgroup)⟩
  rcases Nibble.cases n0 with
    rfl | rfl | rfl | rfl | rfl | rfl | rfl | rfl | rfl | rfl | rfl | rfl | rfl | rfl | rfl | rfl
  · exact absurd rfl hgroup
  -- groups 0x1 to 0x4 hold one variant each
  iterate 4
    · obtain rfl := Option.some.inj h
      rfl
  · obtain ⟨rfl, rfl⟩ := (dispatchIfZero_eq_some_iff n3 _ v).1 h
    rfl
  -- groups 0x6 and 0x7 hold one variant each
  iterate 2
    · obtain rfl := Option.some.inj h
      rfl
  · exact holds_of_arm_eq (arm_of_dispatchGroup8 n3 v h) (by simp [ReferenceArm.holds])
  · obtain ⟨rfl, rfl⟩ := (dispatchIfZero_eq_some_iff n3 _ v).1 h
    rfl
  -- groups 0xA to 0xD hold one variant each
  iterate 4
    · obtain rfl := Option.some.inj h
      rfl
  · exact holds_of_arm_eq (arm_of_dispatchGroupE n2 n3 v h) (by simp [ReferenceArm.holds])
  · exact holds_of_arm_eq (arm_of_dispatchGroupF n2 n3 v h) (by simp [ReferenceArm.holds])

/-- The other direction: the digits an arm tests, in the quartet, make the dispatch select its variant. -/
theorem dispatch_of_arm_holds {q : Quartet} {v : Variant} (h : v.arm.holds q = true)
    (hwf : (assembleOperands v q).wellFormed = true) : dispatchVariant q = some v := by
  obtain ⟨n0, n1, n2, n3⟩ := q
  obtain ⟨h0, h1, h2, h3⟩ := (ReferenceArm.holds_iff _ _).1 h
  subst h0
  cases v with
  | ret | clearScreen =>
    obtain rfl := h1 _ rfl
    obtain rfl := h2 _ rfl
    obtain rfl := h3 _ rfl
    rfl
  | callMachineRoutine =>
    obtain ⟨hclear, hret⟩ := (wellFormed_assembleOperands _ _).1 hwf rfl
    exact congrArg some (by rw [dispatchGroup0_eq_ite_address, if_neg hret, if_neg hclear])
  | jump | callSubroutine | setIndex | jumpWithOffset | skipIfEqualConst | skipIfNotEqualConst | setConst | addConst
  | random | draw => rfl
  | skipIfEqual | set | or | and | xor | addReg | subReg | shiftRight | subRegReverse | shiftLeft | skipIfNotEqual =>
    obtain rfl := h3 _ rfl
    rfl
  | keyPressed | keyNotPressed =>
    obtain rfl := h2 _ rfl
    obtain rfl := h3 _ rfl
    change dispatchGroupE _ = _
    dsimp only
    decide
  | getDelayTimer | waitForKey | setDelayTimer | setSoundTimer | addToIndex | setIndexToSprite | storeBcd
  | storeRegisters | loadRegisters =>
    obtain rfl := h2 _ rfl
    obtain rfl := h3 _ rfl
    change dispatchGroupF _ = _
    dsimp only
    decide

/-- The staged dispatch against the arms of R61 and the payloads of R103(c). -/
theorem dispatchVariant_eq_some_iff {q : Quartet} {v : Variant} :
    dispatchVariant q = some v ↔ v.arm.holds q = true ∧ (assembleOperands v q).wellFormed = true :=
  ⟨arm_holds_of_dispatch, fun ⟨h, hwf⟩ => dispatch_of_arm_holds h hwf⟩

end Sys2Proof
end

section
/-! PROOFS. What follows from the arms: the round trip that begins with a word (R69), the reference function (R61), the
opcode table (R72) and the words that fail (R63, R153). -/

namespace Sys2Proof

/-! ## From a word to its instruction and back (R69) -/

/-- A digit before an assembled address is the word of the four nibbles (R52, R53). -/
theorem append_addressFromNibbles (n0 n1 n2 n3 : Nibble) :
    n0 ++ addressFromNibbles n1 n2 n3 = (⟨n0, n1, n2, n3⟩ : Quartet).toWord := by
  rw [addressFromNibbles_eq_append, BitVec.append_assoc', BitVec.append_assoc']
  rfl

/-- Two digits before an assembled constant are the word of the four nibbles (R52, R54). -/
theorem append_const8FromNibbles (n0 n1 n2 n3 : Nibble) :
    n0 ++ n1 ++ const8FromNibbles n2 n3 = (⟨n0, n1, n2, n3⟩ : Quartet).toWord := by
  rw [const8FromNibbles_eq_append, BitVec.append_assoc']
  rfl

/-- The digits a variant's arm tests and the operands its payload carries make up the whole word (R52). -/
theorem encode_assembleOperands {v : Variant} {q : Quartet} (h : v.arm.holds q = true) :
    encode (assembleOperands v q) = q.toWord := by
  obtain ⟨n0, n1, n2, n3⟩ := q
  obtain ⟨h0, h1, h2, h3⟩ := (ReferenceArm.holds_iff _ _).1 h
  subst h0
  cases v with
  | ret | clearScreen =>
    obtain rfl := h1 _ rfl
    obtain rfl := h2 _ rfl
    obtain rfl := h3 _ rfl
    rfl
  | callMachineRoutine | jump | callSubroutine | setIndex | jumpWithOffset =>
    exact append_addressFromNibbles _ n1 n2 n3
  | skipIfEqualConst | skipIfNotEqualConst | setConst | addConst | random =>
    exact append_const8FromNibbles _ n1 n2 n3
  | skipIfEqual | set | or | and | xor | addReg | subReg | shiftRight | subRegReverse | shiftLeft | skipIfNotEqual =>
    obtain rfl := h3 _ rfl
    rfl
  | draw => rfl
  | keyPressed | keyNotPressed | getDelayTimer | waitForKey | setDelayTimer | setSoundTimer | addToIndex
  | setIndexToSprite | storeBcd | storeRegisters | loadRegisters =>
    obtain rfl := h2 _ rfl
    obtain rfl := h3 _ rfl
    exact append_byte_eq_append_nibbles _ n1 _

/-- Settles O9: the dispatch selects a variant whose arm holds, and so the word is rebuilt from digits and operands. -/
theorem encodeOfDecode : Obligations.EncodeOfDecode := by
  intro w i h
  obtain ⟨q, rfl⟩ := exists_toWord_eq w
  obtain ⟨v, hv, rfl⟩ := decodeQuartet_eq_ok_iff.1 ((decodeWord_toWord q).symm.trans h)
  obtain ⟨harm, hwf⟩ := dispatchVariant_eq_some_iff.1 hv
  exact ⟨encode_assembleOperands harm, hwf⟩

/-! ## The reference function (R61) -/

/-- What the fallback takes is well-formed unless it is one of the two fixed patterns above it (R59, R103(c)). -/
theorem wellFormed_iff_not_fixed_pattern {v : Variant} {q : Quartet} (h : v.arm.holds q = true) :
    (assembleOperands v q).wellFormed = true ↔
      (v = .callMachineRoutine → q ≠ ⟨0x0, 0x0, 0xE, 0x0⟩ ∧ q ≠ ⟨0x0, 0x0, 0xE, 0xE⟩) := by
  obtain ⟨n0, n1, n2, n3⟩ := q
  rw [wellFormed_assembleOperands]
  refine imp_congr_right fun hv => ?_
  have h0 : n0 = 0x0#4 := by
    subst hv
    exact ((ReferenceArm.holds_iff _ _).1 h).1.symm
  simp only [returnTail_eq, clearScreenTail_eq, ne_eq, addressFromNibbles_inj, Quartet.mk.injEq, h0,
    BitVec.ofNat_eq_ofNat, true_and]

/-- The fallback is not the first arm that holds of the two patterns above it (R59). -/
theorem find?_arm_fixed_pattern {q : Quartet} (h : q = ⟨0x0, 0x0, 0xE, 0x0⟩ ∨ q = ⟨0x0, 0x0, 0xE, 0xE⟩) :
    (referenceArms.find? (·.holds q)).map (·.result) ≠ some .callMachineRoutine := by
  rcases h with rfl | rfl <;> decide

/-- The first arm that holds is of the variant the dispatch selects (R61). -/
theorem find?_arm_eq_dispatch (q : Quartet) :
    (referenceArms.find? (·.holds q)).map (·.result) = dispatchVariant q := by
  cases hfind : referenceArms.find? (·.holds q) with
  | none =>
    refine (Option.eq_none_iff_forall_not_mem.2 fun v hv => ?_).symm
    have hnone := List.find?_eq_none.1 hfind v.arm v.arm_mem
    exact hnone (dispatchVariant_eq_some_iff.1 hv).1
  | some r =>
    have hr := arm_result_arm r (List.mem_of_find?_eq_some hfind)
    have hholds : r.result.arm.holds q = true := by
      rw [hr]
      exact List.find?_some (p := fun r : ReferenceArm => r.holds q) hfind
    refine (dispatch_of_arm_holds hholds ((wellFormed_iff_not_fixed_pattern hholds).2 fun hv => ?_)).symm
    refine not_or.1 fun hfixed => find?_arm_fixed_pattern hfixed ?_
    rw [hfind, Option.map_some, hv]

/-- Settles O10: both decoders answer by the variant selected. -/
theorem decodeIsReference : Obligations.DecodeIsReference := by
  intro b0 b1
  rw [decode, decodeQuartet, ← find?_arm_eq_dispatch, decodeReference]
  cases referenceArms.find? (·.holds (extractNibbles b0 b1)) <;> rfl

/-! ## The opcode table (R72) -/

/-- The mask of a digit: all ones where an arm tests it. -/
def digitMask (d : Option Nibble) : Nibble := if d.isSome then 0xF#4 else 0x0#4

/-- The words an arm leaves to the arms above it (R59, R72). -/
def ReferenceArm.exclude (r : ReferenceArm) : List Word :=
  if r.result = .callMachineRoutine then [0x00E0, 0x00EE] else []

/-- The row of R72 that an arm of R61 makes: its digits as pattern and mask. -/
def ReferenceArm.row (r : ReferenceArm) : OpcodeRow where
  variant := r.result
  pattern := (⟨r.n0, r.n1.getD 0x0#4, r.n2.getD 0x0#4, r.n3.getD 0x0#4⟩ : Quartet).toWord
  mask := (⟨0xF#4, digitMask r.n1, digitMask r.n2, digitMask r.n3⟩ : Quartet).toWord
  exclude := r.exclude

/-- The rows of R72 are those of the arms of R61, in order. -/
theorem opcodeTable_eq_map_row : opcodeTable = referenceArms.map ReferenceArm.row := by decide

/-- A nibble agrees with a digit under the digit's mask when it is the digit, or there is none. -/
theorem and_digitMask_eq_iff (n : Nibble) (d : Option Nibble) :
    n &&& digitMask d = d.getD 0x0#4 ↔ ∀ m ∈ d, m = n := by
  cases d with
  | none => simp [digitMask]
  | some m =>
    have hones : n &&& 0xF#4 = n := BitVec.and_allOnes
    simp [digitMask, hones, eq_comm]

/-- A row accepts a word when its arm holds of the word's quartet and does not leave it to the arms above (R72). -/
theorem row_accepts_iff (r : ReferenceArm) (q : Quartet) :
    r.row.accepts q.toWord = true ↔ r.holds q = true ∧ q.toWord ∉ r.exclude := by
  have hones : q.n0 &&& 0xF#4 = q.n0 := BitVec.and_allOnes
  simp only [OpcodeRow.accepts, ReferenceArm.row, Bool.and_eq_true, beq_iff_eq, Quartet.toWord_and, Quartet.toWord_inj,
    Quartet.mk.injEq, hones, and_digitMask_eq_iff, ReferenceArm.holds_iff, Bool.not_eq_true', List.contains_eq_mem,
    decide_eq_false_iff_not, eq_comm (a := q.n0)]

/-- The words the fallback leaves to the arms above it are those its payload cannot stand for (R103(c)). -/
theorem not_excluded_iff {v : Variant} {q : Quartet} (h : v.arm.holds q = true) :
    q.toWord ∉ v.arm.exclude ↔ (assembleOperands v q).wellFormed = true := by
  have hclear : (0x00E0 : Word) = (⟨0x0, 0x0, 0xE, 0x0⟩ : Quartet).toWord := by decide
  have hret : (0x00EE : Word) = (⟨0x0, 0x0, 0xE, 0xE⟩ : Quartet).toWord := by decide
  rw [wellFormed_iff_not_fixed_pattern h, ReferenceArm.exclude, v.arm_result, hclear, hret]
  split_ifs with hv
  · simp [hv, Quartet.toWord_inj]
  · simp [hv]

/-- The row of a variant accepts the words for which the dispatch selects the variant. -/
theorem row_accepts_iff_dispatch (v : Variant) (q : Quartet) :
    v.arm.row.accepts q.toWord = true ↔ dispatchVariant q = some v := by
  rw [row_accepts_iff, dispatchVariant_eq_some_iff]
  exact and_congr_right not_excluded_iff

/-- The accepting rows are those of the arms that accept. -/
theorem acceptingVariants_eq_arms (w : Word) :
    acceptingVariants w = (referenceArms.filter (·.row.accepts w)).map (·.result) := by
  rw [acceptingVariants, opcodeTable_eq_map_row, List.filter_map, List.map_map]
  rfl

/-- A variant's row accepts a word when the dispatch selects the variant. -/
theorem mem_acceptingVariants {q : Quartet} {v : Variant} :
    v ∈ acceptingVariants q.toWord ↔ dispatchVariant q = some v := by
  rw [← row_accepts_iff_dispatch, acceptingVariants_eq_arms, List.mem_map]
  simp only [List.mem_filter]
  constructor
  · rintro ⟨r, ⟨hmem, hacc⟩, rfl⟩
    rwa [arm_result_arm r hmem]
  · exact fun hacc => ⟨v.arm, ⟨v.arm_mem, hacc⟩, v.arm_result⟩

/-- No variant has two rows (R72). -/
theorem acceptingVariants_nodup (w : Word) : (acceptingVariants w).Nodup := by
  have htable : (opcodeTable.map (·.variant)).Nodup := by decide
  exact htable.sublist (List.filter_sublist.map _)

/-- The accepting rows are the one row of the selected variant, or none (R60, R72). -/
theorem acceptingVariants_eq (q : Quartet) : acceptingVariants q.toWord = (dispatchVariant q).toList := by
  have hnodup := acceptingVariants_nodup q.toWord
  have hmem := fun v => mem_acceptingVariants (q := q) (v := v)
  cases hv : dispatchVariant q with
  | none => exact List.eq_nil_iff_forall_not_mem.2 fun v h => by simp [hv, hmem] at h
  | some u =>
    refine List.perm_singleton.1 ((List.perm_ext_iff_of_nodup hnodup (List.nodup_singleton u)).2 fun v => ?_)
    rw [hmem, hv, List.mem_singleton, Option.some_inj, eq_comm]

/-- An assembled instruction is of the variant it was assembled for. -/
@[simp] theorem variant_assembleOperands (v : Variant) (q : Quartet) : (assembleOperands v q).variant = v := by
  cases v <;> rfl

/-- Settles O11: the accepting rows are the selected variant's, which is also what the word decodes by. -/
theorem decodeIsOpcodeTable : Obligations.DecodeIsOpcodeTable := by
  refine ⟨fun w => ?_, fun w i h => ?_, fun w f h => ?_⟩ <;> obtain ⟨q, rfl⟩ := exists_toWord_eq w
  · rw [acceptingVariants_eq]
    exact Option.length_toList_le
  · rw [decodeWord_toWord] at h
    obtain ⟨v, hv, rfl⟩ := decodeQuartet_eq_ok_iff.1 h
    rw [acceptingVariants_eq, hv, variant_assembleOperands, Option.toList_some]
  · rw [decodeWord_toWord] at h
    rw [acceptingVariants_eq, (decodeQuartet_eq_fail_iff.1 h).1, Option.toList_none]

/-! ## The words that fail (R63, R153) -/

/-- The quartets that select nothing, group by group (R63; D7 to D9). -/
theorem dispatchVariant_eq_none_iff (q : Quartet) :
    dispatchVariant q = none ↔
      (q.n0 = 0x5#4 ∧ q.n3 ≠ 0x0#4) ∨
      (q.n0 = 0x8#4 ∧ q.n3 ∈ [0x8#4, 0x9#4, 0xA#4, 0xB#4, 0xC#4, 0xD#4, 0xF#4]) ∨
      (q.n0 = 0x9#4 ∧ q.n3 ≠ 0x0#4) ∨
      (q.n0 = 0xE#4 ∧ tailByte q.n2 q.n3 ∉ [0x9E#8, 0xA1#8]) ∨
      (q.n0 = 0xF#4 ∧
        tailByte q.n2 q.n3 ∉ [0x07#8, 0x0A#8, 0x15#8, 0x18#8, 0x1E#8, 0x29#8, 0x33#8, 0x55#8, 0x65#8]) := by
  obtain ⟨n0, n1, n2, n3⟩ := q
  rcases Nibble.cases n0 with
    rfl | rfl | rfl | rfl | rfl | rfl | rfl | rfl | rfl | rfl | rfl | rfl | rfl | rfl | rfl | rfl
  all_goals
    simp only [dispatchVariant, dispatchIfZero_eq_none_iff, dispatchGroup8_eq_none_iff, dispatchGroupE_eq_none_iff,
      dispatchGroupF_eq_none_iff]
    simp

/-- Settles O17: a word fails when its quartet selects nothing, and its fields are its quartet's. -/
theorem failingWords : Obligations.FailingWords := by
  intro w
  have htail : tailByte (w.extractLsb' 4 4) (w.extractLsb' 0 4) = w.extractLsb' 0 8 :=
    BitVec.extractLsb'_append_extractLsb'_eq_extractLsb' (by decide)
  have hfail : (∃ f, decodeWord w = .fail f) ↔
      dispatchVariant ⟨w.extractLsb' 12 4, w.extractLsb' 8 4, w.extractLsb' 4 4, w.extractLsb' 0 4⟩ = none := by
    rw [decodeWord, decode, extractNibbles_bytes]
    simp only [decodeQuartet_eq_fail_iff, exists_and_left, exists_eq, and_true]
  rw [hfail, dispatchVariant_eq_none_iff, htail]

/-- Settles O18: a word that decodes has a row, and the tails in particular select nothing in their groups. -/
theorem noFallback : Obligations.NoFallback := by
  refine ⟨fun w hrows => ?_, fun x y h hh => ⟨?_, ?_⟩, fun x y h hh => ?_⟩
  · obtain ⟨q, rfl⟩ := exists_toWord_eq w
    rw [acceptingVariants_eq, Option.toList_eq_nil_iff] at hrows
    rw [extractNibbles_toWord, decodeWord_toWord, decodeQuartet_of_dispatch_none hrows]
  · exact decodeWord_nibbles_fail ((dispatchIfZero_eq_none_iff h _).2 hh)
  · exact decodeWord_nibbles_fail ((dispatchIfZero_eq_none_iff h _).2 hh)
  · exact decodeWord_nibbles_fail ((dispatchGroup8_eq_none_iff h).2 hh)

end Sys2Proof
end

section
/-! PROOFS. The result ports: which values they take, what the meanings drive on them, and the result read back
from them (R25, R68, R176). -/

namespace Sys2Proof.Machine

/-! ## The port image by what the dispatch selects -/

/-- The port image of a selected variant is its format's (R68). -/
theorem portImage_of_dispatch_some {q : Quartet} {v : Variant} (h : dispatchVariant q = some v) :
    portImage q.toWord = formatImage v q := by
  simp only [portImage, extractNibbles_toWord, h]

/-- The port image where nothing is selected is the failure's (R68). -/
theorem portImage_of_dispatch_none {q : Quartet} (h : dispatchVariant q = none) :
    portImage q.toWord = failureImage q := by
  simp only [portImage, extractNibbles_toWord, h]

@[simp] theorem formatImage_ok (v : Variant) (q : Quartet) : (formatImage v q).ok = true := by cases v <;> rfl

@[simp] theorem formatImage_tag (v : Variant) (q : Quartet) : (formatImage v q).tag = v.tag := by cases v <;> rfl

@[simp] theorem formatImage_quartet (v : Variant) (q : Quartet) : (formatImage v q).quartet = q.toWord := by
  cases v <;> rfl

/-- The quartet port carries the word itself, on success and on failure alike (R26). -/
@[simp] theorem portImage_quartet (w : Word) : (portImage w).quartet = w := by
  obtain ⟨q, rfl⟩ := exists_toWord_eq w
  cases hv : dispatchVariant q with
  | some v => rw [portImage_of_dispatch_some hv, formatImage_quartet]
  | none => rw [portImage_of_dispatch_none hv, failureImage]

/-- Settles O30: the instruction is assembled from its own word's quartet, so its meaning drives its variant's row. -/
theorem meaningsDriveThePortImage : Obligations.MeaningsDriveThePortImage := by
  intro i s hwf hport
  obtain ⟨q, hq⟩ := exists_toWord_eq (encode i)
  have hdec : decodeQuartet q = .ok i := by rw [← decodeWord_toWord, hq, decodeOfEncode i hwf]
  obtain ⟨v, hv, rfl⟩ := decodeQuartet_eq_ok_iff.1 hdec
  rw [exec_assembleOperands v q s (hport.trans hq.symm), ← hq, portImage_of_dispatch_some hv]

/-- The tags of the variants are 0 to 34 (R68, D4). -/
theorem tag_toNat_le (v : Variant) : v.tag.toNat ≤ 34 := by cases v <;> decide

/-- Settles O40: the ports after a step are a port image, and so a variant's or the failure's. -/
theorem tagsThatAppear : Obligations.TagsThatAppear := by
  intro s s' h
  obtain ⟨t, -, rfl⟩ := step_next_settled h
  obtain ⟨q, hq⟩ := exists_toWord_eq t.opIn
  rw [State.settled_out, ← hq]
  cases hv : dispatchVariant q with
  | some v =>
    rw [portImage_of_dispatch_some hv, formatImage_ok, formatImage_tag]
    exact .inl ⟨rfl, tag_toNat_le v⟩
  | none =>
    rw [portImage_of_dispatch_none hv]
    exact .inr ⟨rfl, rfl, rfl, rfl, rfl, rfl, rfl⟩

/-! ## The result read back (R25) -/

/-- A variant is found again by its tag (R68). -/
@[simp] theorem variantOfTag_tag (v : Variant) : variantOfTag v.tag = some v := by cases v <;> rfl

/-- The operand outputs of a format are the operands its variants assemble (R52, R68). -/
theorem instrOfPorts_formatImage (v : Variant) (q : Quartet) :
    instrOfPorts v (formatImage v q) = assembleOperands v q := by
  have ha := addressFromNibbles_eq_append q.n1 q.n2 q.n3
  have hk := const8FromNibbles_eq_append q.n2 q.n3
  simp only [formatImage, ← ha, ← hk]
  cases v <;> rfl

/-- The result read back from the ports of a word is the word's (R25). -/
theorem result?_portImage (w : Word) : (portImage w).result? = some (decodeWord w) := by
  obtain ⟨q, rfl⟩ := exists_toWord_eq w
  rw [decodeWord_toWord]
  cases hv : dispatchVariant q with
  | some v =>
    rw [portImage_of_dispatch_some hv, decodeQuartet_of_dispatch_some hv]
    simp [Outputs.result?, instrOfPorts_formatImage]
  | none =>
    rw [portImage_of_dispatch_none hv, decodeQuartet_of_dispatch_none hv]
    simp [Outputs.result?, failureImage, extractNibbles_toWord]

/-- The instruction of the ports does not read the quartet port. -/
theorem instrOfPorts_withQuartet (v : Variant) (o : Outputs) (w : Word) :
    instrOfPorts v { o with quartet := w } = instrOfPorts v o := by
  cases v <;> rfl

/-- Beside `ok = 1` the result does not read the quartet port (R25). -/
theorem result?_withQuartet {o : Outputs} (h : o.ok = true) (w : Word) :
    ({ o with quartet := w } : Outputs).result? = o.result? := by
  simp only [Outputs.result?, instrOfPorts_withQuartet]
  rw [if_pos h, if_pos h]

/-- A word whose ports show `ok = 1` decodes to an instruction. -/
theorem exists_decodeWord_of_ok {w : Word} (h : (portImage w).ok = true) : ∃ i, decodeWord w = .ok i := by
  obtain ⟨q, rfl⟩ := exists_toWord_eq w
  cases hv : dispatchVariant q with
  | some v => exact ⟨_, (decodeWord_toWord q).trans (decodeQuartet_of_dispatch_some hv)⟩
  | none =>
    rw [portImage_of_dispatch_none hv] at h
    exact absurd h nofun

/-- Settles O39: the result is read back from the ports, without the quartet port beside `ok = 1`, and two words with
one instruction are its encoding. -/
theorem portsCarryTheResult : Obligations.PortsCarryTheResult := by
  refine ⟨result?_portImage, fun w u hw himage => ?_⟩
  have hu : (portImage u).ok = true := (congrArg Outputs.ok himage).symm.trans hw
  have hresult : some (decodeWord w) = some (decodeWord u) := by
    rw [← result?_portImage, ← result?_portImage, ← result?_withQuartet hw 0#16, himage, result?_withQuartet hu]
  obtain ⟨i, hi⟩ := exists_decodeWord_of_ok hw
  obtain ⟨hencw, -⟩ := encodeOfDecode w i hi
  obtain ⟨hencu, -⟩ := encodeOfDecode u i ((Option.some.inj hresult).symm.trans hi)
  exact hencw.symm.trans hencu

/-- Settles O38: the step ends with the port image of the two bytes' word, from which their result is read back. -/
theorem presentedBytesReturnTheirResult : Obligations.PresentedBytesReturnTheirResult := by
  intro s b0 b1 rest hs
  refine ⟨_, step_present hs, ?_, ?_, by simp⟩
  · rw [State.afterPresent_out, result?_portImage, decodeWord_wordOfBytes]
  · rw [State.afterPresent_out, portImage_quartet]

/-- Settles O37: after any step the result ports are a function of `op_in`. -/
theorem resultDependsOnlyOnTheWord : Obligations.ResultDependsOnlyOnTheWord := by
  refine ⟨fun s t s' t' hs ht heq => ?_,
    fun s b0 b1 rest hs => ⟨_, step_present hs, State.afterPresent_opIn s b0 b1 rest⟩⟩
  have hs' : s'.out = portImage s'.opIn := (outputsFollowInputs s s' hs).1
  have ht' : t'.out = portImage t'.opIn := (outputsFollowInputs t t' ht).1
  rw [hs', ht', heq]

/-! ## The consumer (R176) -/

/-- What the consumer does with the ports of a word, by the word's result (R158, R176). -/
theorem consume_portImage (p : Config.FailPolicy) (w : Word) :
    consume p (portImage w) = some (match decodeWord w with | .ok i => .execute i | .fail f => onFailure p f) := by
  rw [consume, result?_portImage]
  cases decodeWord w <;> rfl

/-- No policy executes anything on a failure (R153, R158). -/
theorem onFailure_ne_execute (p : Config.FailPolicy) (f : DecodeFailure) (i : Instr) : onFailure p f ≠ .execute i := by
  cases p <;> exact nofun

/-- Settles O53: the consumer acts by the word's result, and no policy executes on a failure. -/
theorem consumerExecutesOnlyInstructions : Obligations.ConsumerExecutesOnlyInstructions := by
  refine ⟨fun p w i => ?_, fun p w q h => ?_⟩
  · rw [consume_portImage]
    cases decodeWord w with
    | ok j => simp
    | fail f => simp [onFailure_ne_execute]
  · rw [consume_portImage, h]
    cases p <;> rfl

end Sys2Proof.Machine
end

section
/-! PROOFS. The surroundings: what a store, a load and a window leave in the region and on the ports, and what the
boundary refuses (20_memory.md, R31 to R41). -/

namespace Sys2Proof.Machine

/-! ## The region's bytes -/

/-- A byte after a store: the stored one at its offset, what was there before elsewhere (R39). -/
theorem State.byteAt_storeByte (s : State) (a d : Nat) (b : Byte) :
    (s.storeByte a b).byteAt d = if d = a then b else s.byteAt d := by
  rw [State.byteAt, State.storeByte_mem, Memory.stored?_put]
  split_ifs with hd
  · rfl
  · rfl

/-- A byte after a load: the program's where it was placed, what was there before elsewhere (R37). -/
theorem State.byteAt_loadBytes (s : State) (base d : Nat) (bytes : List Byte) :
    (s.loadBytes base bytes).byteAt d =
      if h : base ≤ d ∧ d < base + bytes.length then bytes[d - base]'(by omega) else s.byteAt d := by
  rw [State.byteAt, State.loadBytes_mem, Memory.stored?_putAll]
  split_ifs with hd
  · rw [List.getElem?_eq_getElem (by omega), Option.getD_some]
  · rfl

/-- A loaded byte by its place in the program (R37). -/
theorem State.byteAt_loadBytes_add (s : State) (base k : Nat) (bytes : List Byte) (h : k < bytes.length) :
    (s.loadBytes base bytes).byteAt (base + k) = bytes[k] := by
  rw [State.byteAt_loadBytes, dif_pos (by omega)]
  simp only [Nat.add_sub_cancel_left]

/-! ## Runs of offsets -/

/-- A run that leaves the region has its first offset outside where the region ends, or where the run begins (R30). -/
theorem firstOutside?_eq_some {a n : Nat} (hn : n ≠ 0) (h : Config.regionBytes < a + n) :
    firstOutside? a n = some (max a Config.regionBytes) := by
  induction n generalizing a with
  | zero => exact absurd rfl hn
  | succ n ih =>
    by_cases ha : a < Config.regionBytes
    · rw [firstOutside?, (inRegion_iff a).2 ha, if_pos rfl, ih (by omega) (by omega)]
      congr 1
      omega
    · rw [firstOutside?, if_neg (mt (inRegion_iff a).1 ha), Nat.max_eq_left (by omega)]

/-- The first offset outside lies in the run and beyond the region (R30). -/
theorem outside_of_firstOutside? {a n d : Nat} (h : firstOutside? a n = some d) :
    a ≤ d ∧ d < a + n ∧ Config.regionBytes ≤ d := by
  by_cases hin : n = 0 ∨ a + n ≤ Config.regionBytes
  · have hnone : firstOutside? a n = none := firstOutside?_eq_none.2 fun k hk => by omega
    exact absurd (hnone.symm.trans h) nofun
  · obtain rfl := Option.some.inj ((firstOutside?_eq_some (a := a) (n := n) (by omega) (by omega)).symm.trans h)
    omega

/-! ## The step by its input -/

/-- A step that finds an input waiting applies it and settles. -/
theorem step_of_applyInput {s t : State} {i : Input} {rest : List Input} (hs : s.inputs = i :: rest)
    (h : applyInput i (s.setInputs rest) = .next t) : step s = .next t.settled := by
  refine step_of_takeInput ?_
  simp only [takeInput, hs, h]

/-- A step whose input is refused is refused. -/
theorem step_of_applyInput_refused {s : State} {i : Input} {rest : List Input} {r : Refusal} (hs : s.inputs = i :: rest)
    (h : applyInput i (s.setInputs rest) = .refused r) : step s = .refused r := by
  simp only [step, takeInput, hs, h]

/-- A step is refused only when it finds an input waiting that is refused: the block itself always completes (R17). -/
theorem step_refused {s : State} {r : Refusal} (h : step s = .refused r) :
    ∃ i rest, s.inputs = i :: rest ∧ applyInput i (s.setInputs rest) = .refused r := by
  have htake : takeInput s = .refused r := by
    cases ht : takeInput s with
    | next t => exact absurd ((step_of_takeInput ht).symm.trans h) nofun
    | fault f => exact absurd ((step_fault_iff.2 ht).symm.trans h) nofun
    | refused q => simpa only [step, ht] using h
  unfold takeInput at htake
  split at htake
  · exact absurd htake nofun
  · next i rest hs => exact ⟨i, rest, hs, htake⟩

/-- A byte of a settled state is the state's. -/
@[simp] theorem State.settled_byteAt (s : State) (d : Nat) : s.settled.byteAt d = s.byteAt d :=
  State.byteAt_congr s.settled_mem d

/-- A state that shows its word's image already keeps its result ports when it settles on the same word. -/
theorem State.settled_out_of_decodeSettled {s t : State} (hs : s.DecodeSettled) (h : t.opIn = s.opIn) :
    t.settled.out = s.out := by
  rw [State.settled_out, h, ← hs]

/-- A store inside the region is always taken (R39). -/
theorem step_store_inside {s : State} {a : Nat} {b : Byte} {rest : List Input} (hs : s.inputs = .store a b :: rest)
    (ha : a < Config.regionBytes) : step s = .next ((s.setInputs rest).storeByte a b).settled := by
  have hin : firstOutside? a 1 = none := firstOutside?_eq_none.2 fun k hk => by omega
  refine step_of_applyInput hs ?_
  simp only [applyInput, storeInput, hin]

/-- A load inside the region is always taken (R37). -/
theorem step_load_inside {s : State} {base : Nat} {bytes : List Byte} {rest : List Input}
    (hs : s.inputs = .loadRom base bytes :: rest) (hb : base + bytes.length ≤ Config.regionBytes) :
    step s = .next ((s.setInputs rest).loadBytes base bytes).settled := by
  have hin : firstOutside? base bytes.length = none := firstOutside?_eq_none.2 fun k hk => by omega
  refine step_of_applyInput hs ?_
  simp only [applyInput, loadInput, hin]

/-- Settles O45: the stored byte is read at its offset and the others as before, and settling moves no byte. -/
theorem storeWritesOneByte : Obligations.StoreWritesOneByte := by
  intro s a b rest hs ha
  refine ⟨_, step_store_inside hs ha, ?_, fun d hd => ?_, by simp, by simp, by simp,
    fun hdec => State.settled_out_of_decodeSettled hdec rfl⟩
  · rw [State.settled_byteAt, State.byteAt_storeByte, if_pos rfl]
  · rw [State.settled_byteAt, State.byteAt_storeByte, if_neg hd]
    rfl

/-- Settles O47: a load places each byte at its offset, and settling moves none. -/
theorem loadPlacesProgram : Obligations.LoadPlacesProgram := by
  intro s base bytes rest hs hb
  refine ⟨_, step_load_inside hs hb, fun k hk => ?_, fun a ha => ?_, by simp, by simp, by simp⟩
  · rw [State.settled_byteAt, State.byteAt_loadBytes_add _ _ _ _ hk]
  · rw [State.settled_byteAt, State.byteAt_loadBytes, dif_neg (by omega)]
    rfl

/-- The ports after a window carry the result of the window's two bytes (R31). -/
theorem result?_afterWindow (s : State) (a : Nat) (rest : List Input) :
    (s.afterWindow a rest).out.result? = some (decode (s.byteAt a) (s.byteAt (a + 1))) := by
  rw [State.afterWindow_out, result?_portImage, State.windowAt, decodeWord_wordOfBytes]

/-- Settles O46: the window is cut from the region the store left. -/
theorem windowSeesStore : Obligations.WindowSeesStore := by
  intro s a c b rest hs ha hc
  refine ⟨_, _, step_store_inside hs ha, step_window_inside (State.settled_inputs _) hc, ?_⟩
  rw [result?_afterWindow, State.settled_byteAt, State.settled_byteAt, State.byteAt_storeByte, State.byteAt_storeByte]
  rfl

/-- Settles O48: the window is cut from the region the load left. -/
theorem loadedProgramDecodes : Obligations.LoadedProgramDecodes := by
  intro s base k bytes rest h hs hb
  refine ⟨_, _, step_load_inside hs hb, step_window_inside (State.settled_inputs _) (by omega), ?_⟩
  rw [result?_afterWindow, State.settled_byteAt, State.settled_byteAt, Nat.add_assoc,
    State.byteAt_loadBytes_add _ _ _ _ h, State.byteAt_loadBytes_add _ _ _ _ (by omega)]

/-- Settles O44: both steps leave the same word on `op_in` and settle on it. -/
theorem windowIsItsTwoBytes : Obligations.WindowIsItsTwoBytes := by
  intro s a rest hs ha
  refine ⟨?_, _, step_window_inside hs ha, State.afterWindow_opIn s a rest⟩
  rw [step_window_inside hs ha, step_present (State.setInputs_inputs s _)]
  rfl

/-! ## What the boundary refuses -/

/-- A presentation of another length than two is refused with that length (R34, D11). -/
theorem presentBytes_of_length_ne {bs : List Byte} (s : State) (h : bs.length ≠ 2) :
    presentBytes bs s = .refused (.inputNotTwoBytes bs.length) := by
  unfold presentBytes
  split
  · exact absurd rfl h
  · rfl

/-- A presentation is refused only for its length (R34, D11). -/
theorem presentBytes_refused {bs : List Byte} {s : State} {r : Refusal} (h : presentBytes bs s = .refused r) :
    bs.length ≠ 2 ∧ r = .inputNotTwoBytes bs.length := by
  have hlen : bs.length ≠ 2 := by
    intro h2
    obtain ⟨b0, b1, rfl⟩ := List.length_eq_two.1 h2
    exact absurd h nofun
  exact ⟨hlen, Host.Outcome.refused.inj (h.symm.trans (presentBytes_of_length_ne s hlen))⟩

/-- The constructor call is never refused: it goes on or faults (R57). -/
theorem callFromOffset_ne_refused (n : Nat) (s : State) (r : Refusal) : callFromOffset n s ≠ .refused r := by
  rcases Nat.lt_or_ge 4095 n with hn | hn
  · rw [callFromOffset_above s hn]
    exact nofun
  · rw [callFromOffset_within s hn]
    exact nofun

/-- The run of offsets an input touches, by its base and its length: none for an input that is no access. -/
def Input.run : Input → Nat × Nat
  | .window a => (a, 2)
  | .store a _ => (a, 1)
  | .loadRom base bytes => (base, bytes.length)
  | .present _ | .callOffset _ | .driveOffset _ => (0, 0)

/-- An access that leaves the region is refused at the first offset outside of its run (log entry 8). -/
theorem applyInput_outside {i : Input} {d : Nat} (s : State) (h : firstOutside? i.run.1 i.run.2 = some d) :
    applyInput i s = .refused (.outsideRegion d) := by
  cases i with
  | window _ | store _ _ | loadRom _ _ =>
    simp only [Input.run] at h
    simp only [applyInput, presentWindow, storeInput, loadInput, h]
  | present _ | callOffset _ | driveOffset _ => exact absurd h nofun

/-- An input is refused only as a presentation of another length than two, or as an access, where its run leaves the
region. -/
theorem applyInput_refused {i : Input} {s : State} {r : Refusal} (h : applyInput i s = .refused r) :
    (∃ bs, i = .present bs ∧ bs.length ≠ 2 ∧ r = .inputNotTwoBytes bs.length) ∨
    (∃ d, firstOutside? i.run.1 i.run.2 = some d ∧ r = .outsideRegion d) := by
  cases i with
  | present bs => exact .inl ⟨bs, rfl, presentBytes_refused h⟩
  | callOffset n => exact absurd h (callFromOffset_ne_refused n s r)
  | driveOffset n => exact absurd h nofun
  | window _ | store _ _ | loadRom _ _ =>
    simp only [applyInput, presentWindow, storeInput, loadInput] at h
    split at h
    · exact absurd h nofun
    · next d hd => exact .inr ⟨d, hd, (Host.Outcome.refused.inj h).symm⟩

/-- Settles O52, input by input: each refusal is of the input's own length or of a first offset outside its run. -/
theorem refusalsAreTheBoundarys : Obligations.RefusalsAreTheBoundarys := by
  intro s r h
  obtain ⟨i, rest, hs, happly⟩ := step_refused h
  rcases applyInput_refused happly with ⟨bs, rfl, hbs⟩ | ⟨d, hd, rfl⟩
  · exact .inl ⟨bs, rest, hs, hbs⟩
  obtain ⟨hlo, hhi, hout⟩ := outside_of_firstOutside? hd
  cases i with
  | window a => exact .inr (.inl ⟨a, d, rest, hs, by simp only [Input.run] at hlo hhi; omega, hout, rfl⟩)
  | store a b =>
    obtain rfl : d = a := by simp only [Input.run] at hlo hhi; omega
    exact .inr (.inr (.inl ⟨d, b, rest, hs, hout, rfl⟩))
  | loadRom base bytes => exact .inr (.inr (.inr ⟨base, bytes, d, rest, hs, hlo, hhi, hout, rfl⟩))
  | present _ | callOffset _ | driveOffset _ => exact absurd hd nofun

/-- Settles O54: an access that leaves the region is refused at the first offset outside of its run. -/
theorem accessOutsideIsRefused : Obligations.AccessOutsideIsRefused := by
  refine ⟨fun s a rest hs ha => ?_, fun s a b rest hs ha => ?_, fun s base bytes rest hs hne hb => ?_⟩ <;>
    refine step_of_applyInput_refused hs (applyInput_outside _ ?_)
  · show firstOutside? a 2 = _
    rw [firstOutside?_eq_some (by decide) (by omega)]
    congr 1
    split_ifs <;> omega
  · show firstOutside? a 1 = _
    rw [firstOutside?_eq_some (by decide) (by omega), Nat.max_eq_left ha]
  · exact firstOutside?_eq_some (mt List.length_eq_zero_iff.1 hne) hb

/-- Settles O19: the decoder of sequences and the boundary both take exactly the pairs. -/
theorem wrongLengthHasNoResult : Obligations.WrongLengthHasNoResult := by
  refine ⟨fun bs => ?_, fun b0 b1 => rfl, fun s bs rest hlen hs =>
    step_of_applyInput_refused hs (presentBytes_of_length_ne _ hlen)⟩
  unfold decodeBytes
  split
  · simp
  · next hne =>
    refine iff_of_true rfl fun h2 => ?_
    obtain ⟨b0, b1, rfl⟩ := List.length_eq_two.1 h2
    exact hne b0 b1 rfl

end Sys2Proof.Machine
end

section
/-! PROOFS. The offset path (R27, R57): the constructor, its call, and the port that is driven. -/

namespace Sys2Proof

/-- A number up to 4095 is the address of its own nibbles (R53, R57). -/
theorem ofNat_eq_addressFromNibbles {n : Nat} (h : n ≤ 4095) :
    BitVec.ofNat 12 n = addressFromNibbles (BitVec.ofNat 4 (n / 256)) (BitVec.ofNat 4 (n / 16)) (BitVec.ofNat 4 n) := by
  apply BitVec.eq_of_toNat_eq
  simp only [addressFromNibbles_toNat, BitVec.toNat_ofNat]
  omega

/-- Settles O6: up to 4095 the twelve bits are the whole number. -/
theorem addressFromOffsetBoundary : Obligations.AddressFromOffsetBoundary := by
  refine ⟨fun n hn => ⟨BitVec.ofNat 12 n, ?_, ?_, ofNat_eq_addressFromNibbles hn⟩, fun n hn => ?_⟩
  · rw [addressFromOffset, if_neg (by omega)]
  · rw [BitVec.toNat_ofNat]
    exact Nat.mod_eq_of_lt (by omega)
  · rw [addressFromOffset, if_pos hn]

end Sys2Proof

namespace Sys2Proof.Machine

/-- Settles O50: up to 4095 the number is on `off_in`, and the offset ports settle on it. -/
theorem offsetCall : Obligations.OffsetCall := by
  intro s n rest hs
  refine ⟨fun hn => ?_, step_callOffset_above hs⟩
  have hval : (offsetOfAddress (BitVec.ofNat 12 n)).toNat = n := by
    rw [offsetOfAddress_toNat, BitVec.toNat_ofNat]
    exact Nat.mod_eq_of_lt (by omega)
  have hstep := step_of_applyInput hs (callFromOffset_within (s.setInputs rest) hn)
  obtain ⟨-, herr, haddr⟩ := outputsFollowInputs _ _ hstep
  rw [State.settled_offIn, State.driveOffIn_offIn, hval] at herr haddr
  have hok := herr.trans (decide_eq_false (by omega))
  exact ⟨_, hstep, hok, haddr hok, by simp, by simp⟩

/-- Settles O51: the driven number is on `off_in`, and the offset ports settle on it. -/
theorem offsetPorts : Obligations.OffsetPorts := by
  intro s n rest hs
  refine ⟨_, step_of_applyInput hs rfl, ?_, fun hn => ?_, by simp, by simp, by simp, by simp,
    fun hdec => State.settled_out_of_decodeSettled hdec rfl⟩
  · rw [State.settled_offErr]
    exact decide_eq_true_iff
  · rw [State.settled_offAddr]
    exact State.settleOffset_offAddr_of_le hn

end Sys2Proof.Machine
end

section
/-! PROOFS. The payloads by format, the printed scenarios, and the meanings one by one: each is the drive of its format
(R52, R101 to R138), so the next state is the old one but for the result ports. -/

namespace Sys2Proof

/-- Settles O7: with address and constant as the nibbles in order, each variant's payload is its format's. -/
theorem payloadFollowsFormat : Obligations.PayloadFollowsFormat := by
  intro v q
  refine ⟨variant_assembleOperands v q, ?_⟩
  rw [← addressFromNibbles_eq_append, ← const8FromNibbles_eq_append]
  cases v <;> rfl

/-- Settles O20, word by word. -/
theorem sourceScenarios : Obligations.SourceScenarios := by
  unfold Obligations.SourceScenarios
  decide

end Sys2Proof

namespace Sys2Proof.Machine

/-- Settles O21: both meanings drive format Z. -/
theorem noOperandInstructions : Obligations.NoOperandInstructions := fun _ => ⟨rfl, rfl⟩

/-- Settles O22: the five meanings drive format A. -/
theorem addressInstructions : Obligations.AddressInstructions := fun _ _ => ⟨rfl, rfl, rfl, rfl, rfl⟩

/-- Settles O23: the five meanings drive format XK. -/
theorem registerConstantInstructions : Obligations.RegisterConstantInstructions :=
  fun _ _ _ => ⟨rfl, rfl, rfl, rfl, rfl⟩

/-- Settles O24: both meanings drive format XY. -/
theorem registerPairSkips : Obligations.RegisterPairSkips := fun _ _ _ => ⟨rfl, rfl⟩

/-- Settles O25: the nine meanings drive format XY. -/
theorem groupEightInstructions : Obligations.GroupEightInstructions :=
  fun _ _ _ => ⟨rfl, rfl, rfl, rfl, rfl, rfl, rfl, rfl, rfl⟩

/-- Settles O26: the meaning drives format XYH. -/
theorem drawInstruction : Obligations.DrawInstruction := fun _ _ _ _ => rfl

/-- Settles O27: both meanings drive format X. -/
theorem keyInstructions : Obligations.KeyInstructions := fun _ _ => ⟨rfl, rfl⟩

/-- Settles O28: the nine meanings drive format X. -/
theorem groupFInstructions : Obligations.GroupFInstructions :=
  fun _ _ => ⟨rfl, rfl, rfl, rfl, rfl, rfl, rfl, rfl, rfl⟩

/-- Every meaning is a drive of the result ports: a tag and the operand outputs, the quartet port untouched (R25). -/
theorem exec_eq_driveResult (i : Instr) (s : State) :
    ∃ tag vx vy addr k8 k4, exec i s = .next (s.driveResult tag vx vy addr k8 k4) := by
  cases i <;> exact ⟨_, _, _, _, _, _, rfl⟩

/-- Settles O29: the drive of the result ports leaves everything else. -/
theorem decodingWritesOnlyPorts : Obligations.DecodingWritesOnlyPorts := by
  intro i s t h
  obtain ⟨tag, vx, vy, addr, k8, k4, hdrive⟩ := exec_eq_driveResult i s
  obtain rfl := Host.Outcome.next.inj (hdrive.symm.trans h)
  exact ⟨State.byteAt_congr rfl, rfl, rfl, rfl, rfl, rfl, rfl, rfl, rfl⟩

/-! ## The step by its result (R17, R151) -/

/-- A step whose word decodes runs the instruction, in the state with the outputs before it driven (log entry 1). -/
theorem step_of_decode_ok {s t : State} {i : Instr} (htake : takeInput s = .next t) (h : decodeWord t.opIn = .ok i) :
    step s = exec i t.extracted := by
  simp only [step, htake, settle, h]

/-- Settles O31: the two written-out inputs are taken to their own words. -/
theorem stepRunsDecodedInstruction : Obligations.StepRunsDecodedInstruction := by
  refine ⟨fun s t i htake h => step_of_decode_ok htake h, fun s b0 b1 rest i hs h => ?_, fun s a rest i hs ha h => ?_⟩
  · have htake : takeInput s = .next ((s.setInputs rest).presentWord (wordOfBytes b0 b1)) := by
      simp only [takeInput, hs, applyInput, presentBytes]
    exact step_of_decode_ok htake ((decodeWord_wordOfBytes b0 b1).trans h)
  · have htake := (takeInput_window hs).trans (presentWindow_inside (s.setInputs rest) ha)
    exact step_of_decode_ok htake ((decodeWord_wordOfBytes _ _).trans h)

/-- The port image of a failing word (R151, R158): `ok = 0`, `tag = 63`, no operands, and the word itself. -/
theorem portImage_of_decode_fail {w : Word} {f : DecodeFailure} (h : decodeWord w = .fail f) :
    portImage w = ⟨w, false, 63, 0, 0, 0, 0, 0⟩ := by
  obtain ⟨q, rfl⟩ := exists_toWord_eq w
  obtain ⟨hnone, -⟩ := decodeQuartet_eq_fail_iff.1 ((decodeWord_toWord q).symm.trans h)
  rw [portImage_of_dispatch_none hnone, failureImage]

/-- Settles O32: a failing word is settled like any other, on the failure's port image. -/
theorem stepReportsDecodeFailure : Obligations.StepReportsDecodeFailure := by
  intro s t f htake h
  obtain ⟨-, hf⟩ := decodeQuartet_eq_fail_iff.1 h
  exact ⟨hf, _, step_of_takeInput htake, portImage_of_decode_fail h, by simp⟩

end Sys2Proof.Machine
end
